-- ==== Sys2Proof/Word.lean ====
section
/-! DEFINITION. The word types of the machine and the operand types of its instructions
(00_scope.md R4 to R6, 30_encoding.md R75). -/
namespace Sys2Proof

/-- A register, an I/O register or a byte of memory: 8 bits (00_scope.md R4). -/
abbrev Byte := BitVec 8
/-- A word of program memory: 16 bits (30_encoding.md R70). -/
abbrev Word := BitVec 16
/-- A word address in program memory, as wide as the program counter (00_scope.md R5). -/
abbrev ProgAddr := BitVec 14
/-- A data address (00_scope.md R6). -/
abbrev DataAddr := BitVec 16
/-- An I/O address, 0 to 63 (10_state.md R22). -/
abbrev IoAddr := BitVec 6
/-- An I/O address of the lower half, 0 to 31 (20_memory.md R51). -/
abbrev LowIoAddr := BitVec 5
/-- A general register's number (10_state.md R10). -/
abbrev Reg := Fin 32
/-- A bit's number in a byte. -/
abbrev BitNo := Fin 8

end Sys2Proof
end

