-- ==== Sys2Proof/Syntax.lean ====
section
/-! DEFINITION. The instructions of the ATmega32: one constructor for each of the 131 rows of
`spec/opcode_table.json` (00_scope.md R2), the further names of a word (30_encoding.md R80)
among them. Operands stand in the order the assembly line has them. -/
namespace Sys2Proof

/-- An instruction as syntax. Which register an operand may name is `Instr.wellFormed`. -/
inductive Instr where
  -- 40_data_transfer.md
  /-- `MOV Rd,Rr`, R100. -/
  | mov (d : Reg) (r : Reg)
  /-- `MOVW Rd,Rr`, R101. -/
  | movw (d : Reg) (r : Reg)
  /-- `LDI Rd,K`, R102. -/
  | ldi (d : Reg) (k : Byte)
  /-- `LD Rd,X`, R103. -/
  | ldX (d : Reg)
  /-- `LD Rd,X+`, R104. -/
  | ldXInc (d : Reg)
  /-- `LD Rd,-X`, R105. -/
  | ldXDec (d : Reg)
  /-- `LD Rd,Y`, R106. -/
  | ldY (d : Reg)
  /-- `LD Rd,Y+`, R107. -/
  | ldYInc (d : Reg)
  /-- `LD Rd,-Y`, R108. -/
  | ldYDec (d : Reg)
  /-- `LDD Rd,Y+q`, R109. -/
  | lddY (d : Reg) (q : BitVec 6)
  /-- `LD Rd,Z`, R110. -/
  | ldZ (d : Reg)
  /-- `LD Rd,Z+`, R111. -/
  | ldZInc (d : Reg)
  /-- `LD Rd,-Z`, R112. -/
  | ldZDec (d : Reg)
  /-- `LDD Rd,Z+q`, R113. -/
  | lddZ (d : Reg) (q : BitVec 6)
  /-- `LDS Rd,k`, R114. -/
  | lds (d : Reg) (k : Word)
  /-- `ST X,Rr`, R115. -/
  | stX (r : Reg)
  /-- `ST X+,Rr`, R116. -/
  | stXInc (r : Reg)
  /-- `ST -X,Rr`, R117. -/
  | stXDec (r : Reg)
  /-- `ST Y,Rr`, R118. -/
  | stY (r : Reg)
  /-- `ST Y+,Rr`, R119. -/
  | stYInc (r : Reg)
  /-- `ST -Y,Rr`, R120. -/
  | stYDec (r : Reg)
  /-- `STD Y+q,Rr`, R121. -/
  | stdY (q : BitVec 6) (r : Reg)
  /-- `ST Z,Rr`, R122. -/
  | stZ (r : Reg)
  /-- `ST Z+,Rr`, R123. -/
  | stZInc (r : Reg)
  /-- `ST -Z,Rr`, R124. -/
  | stZDec (r : Reg)
  /-- `STD Z+q,Rr`, R125. -/
  | stdZ (q : BitVec 6) (r : Reg)
  /-- `STS k,Rr`, R126. -/
  | sts (k : Word) (r : Reg)
  /-- `LPM`, R127. -/
  | lpmR0
  /-- `LPM Rd,Z`, R128. -/
  | lpmZ (d : Reg)
  /-- `LPM Rd,Z+`, R129. -/
  | lpmZInc (d : Reg)
  /-- `SPM`, R141. -/
  | spm
  /-- `IN Rd,A`, R130. -/
  | inp (d : Reg) (a : IoAddr)
  /-- `OUT A,Rr`, R131. -/
  | out (a : IoAddr) (r : Reg)
  /-- `PUSH Rr`, R132. -/
  | push (r : Reg)
  /-- `POP Rd`, R133. -/
  | pop (d : Reg)
  -- 41_branch.md
  /-- `RJMP k`, R150. -/
  | rjmp (k : BitVec 12)
  /-- `IJMP`, R151. -/
  | ijmp
  /-- `JMP k`, R152. -/
  | jmp (k : BitVec 22)
  /-- `RCALL k`, R153. -/
  | rcall (k : BitVec 12)
  /-- `ICALL`, R154. -/
  | icall
  /-- `CALL k`, R155. -/
  | call (k : BitVec 22)
  /-- `RET`, R156. -/
  | ret
  /-- `RETI`, R157. -/
  | reti
  /-- `CPSE Rd,Rr`, R158. -/
  | cpse (d : Reg) (r : Reg)
  /-- `CP Rd,Rr`, R159. -/
  | cp (d : Reg) (r : Reg)
  /-- `CPC Rd,Rr`, R160. -/
  | cpc (d : Reg) (r : Reg)
  /-- `CPI Rd,K`, R161. -/
  | cpi (d : Reg) (k : Byte)
  /-- `SBRC Rr,b`, R162. -/
  | sbrc (r : Reg) (b : BitNo)
  /-- `SBRS Rr,b`, R163. -/
  | sbrs (r : Reg) (b : BitNo)
  /-- `SBIC A,b`, R164. -/
  | sbic (a : LowIoAddr) (b : BitNo)
  /-- `SBIS A,b`, R165. -/
  | sbis (a : LowIoAddr) (b : BitNo)
  /-- `BRBS s,k`, R166. -/
  | brbs (s : BitNo) (k : BitVec 7)
  /-- `BRBC s,k`, R167. -/
  | brbc (s : BitNo) (k : BitVec 7)
  /-- `BREQ k`, R168. -/
  | breq (k : BitVec 7)
  /-- `BRNE k`, R169. -/
  | brne (k : BitVec 7)
  /-- `BRCS k`, R170. -/
  | brcs (k : BitVec 7)
  /-- `BRCC k`, R171. -/
  | brcc (k : BitVec 7)
  /-- `BRSH k`, R172. -/
  | brsh (k : BitVec 7)
  /-- `BRLO k`, R173. -/
  | brlo (k : BitVec 7)
  /-- `BRMI k`, R174. -/
  | brmi (k : BitVec 7)
  /-- `BRPL k`, R175. -/
  | brpl (k : BitVec 7)
  /-- `BRGE k`, R176. -/
  | brge (k : BitVec 7)
  /-- `BRLT k`, R177. -/
  | brlt (k : BitVec 7)
  /-- `BRHS k`, R178. -/
  | brhs (k : BitVec 7)
  /-- `BRHC k`, R179. -/
  | brhc (k : BitVec 7)
  /-- `BRTS k`, R180. -/
  | brts (k : BitVec 7)
  /-- `BRTC k`, R181. -/
  | brtc (k : BitVec 7)
  /-- `BRVS k`, R182. -/
  | brvs (k : BitVec 7)
  /-- `BRVC k`, R183. -/
  | brvc (k : BitVec 7)
  /-- `BRIE k`, R184. -/
  | brie (k : BitVec 7)
  /-- `BRID k`, R185. -/
  | brid (k : BitVec 7)
  -- 42_bit_and_bit_test.md
  /-- `SBI A,b`, R200. -/
  | sbi (a : LowIoAddr) (b : BitNo)
  /-- `CBI A,b`, R201. -/
  | cbi (a : LowIoAddr) (b : BitNo)
  /-- `LSL Rd`, R202. -/
  | lsl (d : Reg)
  /-- `LSR Rd`, R203. -/
  | lsr (d : Reg)
  /-- `ROL Rd`, R204. -/
  | rol (d : Reg)
  /-- `ROR Rd`, R205. -/
  | ror (d : Reg)
  /-- `ASR Rd`, R206. -/
  | asr (d : Reg)
  /-- `SWAP Rd`, R207. -/
  | swap (d : Reg)
  /-- `BSET s`, R208. -/
  | bset (s : BitNo)
  /-- `BCLR s`, R209. -/
  | bclr (s : BitNo)
  /-- `BST Rd,b`, R210. -/
  | bst (d : Reg) (b : BitNo)
  /-- `BLD Rd,b`, R211. -/
  | bld (d : Reg) (b : BitNo)
  /-- `SEC`, R212. -/
  | sec
  /-- `CLC`, R213. -/
  | clc
  /-- `SEN`, R214. -/
  | sen
  /-- `CLN`, R215. -/
  | cln
  /-- `SEZ`, R216. -/
  | sez
  /-- `CLZ`, R217. -/
  | clz
  /-- `SEI`, R218. -/
  | sei
  /-- `CLI`, R219. -/
  | cli
  /-- `SES`, R220. -/
  | ses
  /-- `CLS`, R221. -/
  | cls
  /-- `SEV`, R222. -/
  | sev
  /-- `CLV`, R223. -/
  | clv
  /-- `SET`, R224. -/
  | sett
  /-- `CLT`, R225. -/
  | clt
  /-- `SEH`, R226. -/
  | seh
  /-- `CLH`, R227. -/
  | clh
  -- 43_arithmetic_logic.md
  /-- `ADD Rd,Rr`, R250. -/
  | add (d : Reg) (r : Reg)
  /-- `ADC Rd,Rr`, R251. -/
  | adc (d : Reg) (r : Reg)
  /-- `ADIW Rd+1:Rd,K`, R252. -/
  | adiw (d : Reg) (k : BitVec 6)
  /-- `SUB Rd,Rr`, R253. -/
  | sub (d : Reg) (r : Reg)
  /-- `SUBI Rd,K`, R254. -/
  | subi (d : Reg) (k : Byte)
  /-- `SBC Rd,Rr`, R255. -/
  | sbc (d : Reg) (r : Reg)
  /-- `SBCI Rd,K`, R256. -/
  | sbci (d : Reg) (k : Byte)
  /-- `SBIW Rd+1:Rd,K`, R257. -/
  | sbiw (d : Reg) (k : BitVec 6)
  /-- `AND Rd,Rr`, R258. -/
  | and (d : Reg) (r : Reg)
  /-- `ANDI Rd,K`, R259. -/
  | andi (d : Reg) (k : Byte)
  /-- `OR Rd,Rr`, R260. -/
  | or (d : Reg) (r : Reg)
  /-- `ORI Rd,K`, R261. -/
  | ori (d : Reg) (k : Byte)
  /-- `EOR Rd,Rr`, R262. -/
  | eor (d : Reg) (r : Reg)
  /-- `COM Rd`, R263. -/
  | com (d : Reg)
  /-- `NEG Rd`, R264. -/
  | neg (d : Reg)
  /-- `SBR Rd,K`, R265. -/
  | sbr (d : Reg) (k : Byte)
  /-- `CBR Rd,K`, R266. -/
  | cbr (d : Reg) (k : Byte)
  /-- `INC Rd`, R267. -/
  | inc (d : Reg)
  /-- `DEC Rd`, R268. -/
  | dec (d : Reg)
  /-- `TST Rd`, R269. -/
  | tst (d : Reg)
  /-- `CLR Rd`, R270. -/
  | clr (d : Reg)
  /-- `SER Rd`, R271. -/
  | ser (d : Reg)
  /-- `MUL Rd,Rr`, R272. -/
  | mul (d : Reg) (r : Reg)
  /-- `MULS Rd,Rr`, R273. -/
  | muls (d : Reg) (r : Reg)
  /-- `MULSU Rd,Rr`, R274. -/
  | mulsu (d : Reg) (r : Reg)
  /-- `FMUL Rd,Rr`, R275. -/
  | fmul (d : Reg) (r : Reg)
  /-- `FMULS Rd,Rr`, R276. -/
  | fmuls (d : Reg) (r : Reg)
  /-- `FMULSU Rd,Rr`, R277. -/
  | fmulsu (d : Reg) (r : Reg)
  -- 44_mcu_control.md
  /-- `NOP`, R300. -/
  | nop
  /-- `SLEEP`, R301. -/
  | sleep
  /-- `WDR`, R302. -/
  | wdr
  /-- `BREAK`, R303. -/
  | brk
deriving DecidableEq, Repr

end Sys2Proof
end

