-- ==== Sys2Proof/WellFormed.lean ====
section
/-! DEFINITION. Which registers an instruction may name (10_state.md R11, 30_encoding.md R75).
Every other operand range of R75 is exactly its type, so nothing else can be ill formed. -/
namespace Sys2Proof

/-- R16 to R31 (R11). -/
def isUpper (d : Reg) : Bool := decide (16 ≤ d.val)
/-- R16 to R23 (R11, 90_conflicts.md C22). -/
def isMulReg (d : Reg) : Bool := decide (16 ≤ d.val) && decide (d.val ≤ 23)
/-- R0, R2, ..., R30 (R11). -/
def isEven (d : Reg) : Bool := decide (d.val % 2 = 0)
/-- R24, R26, R28, R30 (R11). -/
def isWordReg (d : Reg) : Bool := decide (24 ≤ d.val) && decide (d.val % 2 = 0)

/-- The operands lie in the ranges of R11 and R75. -/
def Instr.wellFormed : Instr → Bool
  | .mov _ _ => true
  | .movw d r => isEven d && isEven r
  | .ldi d _ => isUpper d
  | .ldX _ => true
  | .ldXInc _ => true
  | .ldXDec _ => true
  | .ldY _ => true
  | .ldYInc _ => true
  | .ldYDec _ => true
  | .lddY _ _ => true
  | .ldZ _ => true
  | .ldZInc _ => true
  | .ldZDec _ => true
  | .lddZ _ _ => true
  | .lds _ _ => true
  | .stX _ => true
  | .stXInc _ => true
  | .stXDec _ => true
  | .stY _ => true
  | .stYInc _ => true
  | .stYDec _ => true
  | .stdY _ _ => true
  | .stZ _ => true
  | .stZInc _ => true
  | .stZDec _ => true
  | .stdZ _ _ => true
  | .sts _ _ => true
  | .lpmR0 => true
  | .lpmZ _ => true
  | .lpmZInc _ => true
  | .spm => true
  | .inp _ _ => true
  | .out _ _ => true
  | .push _ => true
  | .pop _ => true
  | .rjmp _ => true
  | .ijmp => true
  | .jmp _ => true
  | .rcall _ => true
  | .icall => true
  | .call _ => true
  | .ret => true
  | .reti => true
  | .cpse _ _ => true
  | .cp _ _ => true
  | .cpc _ _ => true
  | .cpi d _ => isUpper d
  | .sbrc _ _ => true
  | .sbrs _ _ => true
  | .sbic _ _ => true
  | .sbis _ _ => true
  | .brbs _ _ => true
  | .brbc _ _ => true
  | .breq _ => true
  | .brne _ => true
  | .brcs _ => true
  | .brcc _ => true
  | .brsh _ => true
  | .brlo _ => true
  | .brmi _ => true
  | .brpl _ => true
  | .brge _ => true
  | .brlt _ => true
  | .brhs _ => true
  | .brhc _ => true
  | .brts _ => true
  | .brtc _ => true
  | .brvs _ => true
  | .brvc _ => true
  | .brie _ => true
  | .brid _ => true
  | .sbi _ _ => true
  | .cbi _ _ => true
  | .lsl _ => true
  | .lsr _ => true
  | .rol _ => true
  | .ror _ => true
  | .asr _ => true
  | .swap _ => true
  | .bset _ => true
  | .bclr _ => true
  | .bst _ _ => true
  | .bld _ _ => true
  | .sec => true
  | .clc => true
  | .sen => true
  | .cln => true
  | .sez => true
  | .clz => true
  | .sei => true
  | .cli => true
  | .ses => true
  | .cls => true
  | .sev => true
  | .clv => true
  | .sett => true
  | .clt => true
  | .seh => true
  | .clh => true
  | .add _ _ => true
  | .adc _ _ => true
  | .adiw d _ => isWordReg d
  | .sub _ _ => true
  | .subi d _ => isUpper d
  | .sbc _ _ => true
  | .sbci d _ => isUpper d
  | .sbiw d _ => isWordReg d
  | .and _ _ => true
  | .andi d _ => isUpper d
  | .or _ _ => true
  | .ori d _ => isUpper d
  | .eor _ _ => true
  | .com _ => true
  | .neg _ => true
  | .sbr d _ => isUpper d
  | .cbr d _ => isUpper d
  | .inc _ => true
  | .dec _ => true
  | .tst _ => true
  | .clr _ => true
  | .ser d => isUpper d
  | .mul _ _ => true
  | .muls d r => isUpper d && isUpper r
  | .mulsu d r => isMulReg d && isMulReg r
  | .fmul d r => isMulReg d && isMulReg r
  | .fmuls d r => isMulReg d && isMulReg r
  | .fmulsu d r => isMulReg d && isMulReg r
  | .nop => true
  | .sleep => true
  | .wdr => true
  | .brk => true

end Sys2Proof
end

