-- ==== Sys2Proof/Decode.lean ====
section
/-! DEFINITION. Decoding and encoding (30_encoding.md). The decoder is one table, the rows of R77
that a decoder needs, and it is total: a word that no row matches is rejected by name (R84).
The encoder is written from the formats of R72 on its own. Every bit pattern is the spec's own
general knowledge (UNVERIFIED, entry 13). -/
namespace Sys2Proof

/-! ## The fields of a word (R72, R75) -/

/-- Bits 8 to 4: d (or r) of formats RR, R1, RQ, IO, RB and A16. -/
def field84 (w : Word) : Reg := (w.extractLsb' 4 5).toFin
/-- Bit 9 and bits 3 to 0: r of format RR. -/
def fieldRr (w : Word) : Reg := (w.extractLsb' 9 1 ++ w.extractLsb' 0 4).toFin
/-- 16 and bits 7 to 4: d of formats RI8 and RM16. -/
def fieldUpperD (w : Word) : Reg := (1#1 ++ w.extractLsb' 4 4).toFin
/-- 16 and bits 3 to 0: r of format RM16. -/
def fieldUpperR (w : Word) : Reg := (1#1 ++ w.extractLsb' 0 4).toFin
/-- 16 and bits 6 to 4: d of format RM8. -/
def fieldMulD (w : Word) : Reg := (0b10#2 ++ w.extractLsb' 4 3).toFin
/-- 16 and bits 2 to 0: r of format RM8. -/
def fieldMulR (w : Word) : Reg := (0b10#2 ++ w.extractLsb' 0 3).toFin
/-- Twice bits 7 to 4: d of format RW. -/
def fieldPairD (w : Word) : Reg := (w.extractLsb' 4 4 ++ 0#1).toFin
/-- Twice bits 3 to 0: r of format RW. -/
def fieldPairR (w : Word) : Reg := (w.extractLsb' 0 4 ++ 0#1).toFin
/-- 24 and twice bits 5 to 4: d of format IW. -/
def fieldWordD (w : Word) : Reg := (0b11#2 ++ w.extractLsb' 4 2 ++ 0#1).toFin
/-- Bits 11 to 8 and 3 to 0: K of format RI8. -/
def fieldK8 (w : Word) : Byte := w.extractLsb' 8 4 ++ w.extractLsb' 0 4
/-- Bits 7 to 6 and 3 to 0: K of format IW. -/
def fieldK6 (w : Word) : BitVec 6 := w.extractLsb' 6 2 ++ w.extractLsb' 0 4
/-- Bits 13, 11 to 10 and 2 to 0: q of format RQ. -/
def fieldQ (w : Word) : BitVec 6 := w.extractLsb' 13 1 ++ w.extractLsb' 10 2 ++ w.extractLsb' 0 3
/-- Bits 10 to 9 and 3 to 0: A of format IO. -/
def fieldA6 (w : Word) : IoAddr := w.extractLsb' 9 2 ++ w.extractLsb' 0 4
/-- Bits 7 to 3: A of format IOB. -/
def fieldA5 (w : Word) : LowIoAddr := w.extractLsb' 3 5
/-- Bits 2 to 0: b of formats IOB and RB, s of format BR. -/
def fieldB (w : Word) : BitNo := (w.extractLsb' 0 3).toFin
/-- Bits 6 to 4: s of format SB. -/
def fieldS (w : Word) : BitNo := (w.extractLsb' 4 3).toFin
/-- Bits 8 to 4, bit 0 and the second word: k of format A22. -/
def fieldK22 (w w1 : Word) : BitVec 22 := w.extractLsb' 4 5 ++ w.extractLsb' 0 1 ++ w1

/-! ## The opcode list (R77) -/

/-- A row of the opcode list: its mnemonic, the mask of its fixed bits, their value, and the
instruction that the two words of a match stand for. -/
structure Row where
  mnemonic : String
  mask : Word
  value : Word
  build : Word → Word → Instr

/-- The fixed bits of the row match the first word w (R71). -/
def Row.matches (row : Row) (w : Word) : Bool := w &&& row.mask == row.value

def rowsTwoRegisters : List Row := [
  ⟨"NOP", 0xFFFF#16, 0x0000#16, fun _ _ => .nop⟩,
  ⟨"MOVW_Rd_Rr", 0xFF00#16, 0x0100#16, fun w _ => .movw (fieldPairD w) (fieldPairR w)⟩,
  ⟨"MULS_Rd_Rr", 0xFF00#16, 0x0200#16, fun w _ => .muls (fieldUpperD w) (fieldUpperR w)⟩,
  ⟨"MULSU_Rd_Rr", 0xFF88#16, 0x0300#16, fun w _ => .mulsu (fieldMulD w) (fieldMulR w)⟩,
  ⟨"FMUL_Rd_Rr", 0xFF88#16, 0x0308#16, fun w _ => .fmul (fieldMulD w) (fieldMulR w)⟩,
  ⟨"FMULS_Rd_Rr", 0xFF88#16, 0x0380#16, fun w _ => .fmuls (fieldMulD w) (fieldMulR w)⟩,
  ⟨"FMULSU_Rd_Rr", 0xFF88#16, 0x0388#16, fun w _ => .fmulsu (fieldMulD w) (fieldMulR w)⟩,
  ⟨"CPC_Rd_Rr", 0xFC00#16, 0x0400#16, fun w _ => .cpc (field84 w) (fieldRr w)⟩,
  ⟨"SBC_Rd_Rr", 0xFC00#16, 0x0800#16, fun w _ => .sbc (field84 w) (fieldRr w)⟩,
  ⟨"ADD_Rd_Rr", 0xFC00#16, 0x0C00#16, fun w _ => .add (field84 w) (fieldRr w)⟩,
  ⟨"CPSE_Rd_Rr", 0xFC00#16, 0x1000#16, fun w _ => .cpse (field84 w) (fieldRr w)⟩,
  ⟨"CP_Rd_Rr", 0xFC00#16, 0x1400#16, fun w _ => .cp (field84 w) (fieldRr w)⟩,
  ⟨"SUB_Rd_Rr", 0xFC00#16, 0x1800#16, fun w _ => .sub (field84 w) (fieldRr w)⟩,
  ⟨"ADC_Rd_Rr", 0xFC00#16, 0x1C00#16, fun w _ => .adc (field84 w) (fieldRr w)⟩,
  ⟨"AND_Rd_Rr", 0xFC00#16, 0x2000#16, fun w _ => .and (field84 w) (fieldRr w)⟩,
  ⟨"EOR_Rd_Rr", 0xFC00#16, 0x2400#16, fun w _ => .eor (field84 w) (fieldRr w)⟩,
  ⟨"OR_Rd_Rr", 0xFC00#16, 0x2800#16, fun w _ => .or (field84 w) (fieldRr w)⟩,
  ⟨"MOV_Rd_Rr", 0xFC00#16, 0x2C00#16, fun w _ => .mov (field84 w) (fieldRr w)⟩]
def rowsImmediate : List Row := [
  ⟨"CPI_Rd_K", 0xF000#16, 0x3000#16, fun w _ => .cpi (fieldUpperD w) (fieldK8 w)⟩,
  ⟨"SBCI_Rd_K", 0xF000#16, 0x4000#16, fun w _ => .sbci (fieldUpperD w) (fieldK8 w)⟩,
  ⟨"SUBI_Rd_K", 0xF000#16, 0x5000#16, fun w _ => .subi (fieldUpperD w) (fieldK8 w)⟩,
  ⟨"ORI_Rd_K", 0xF000#16, 0x6000#16, fun w _ => .ori (fieldUpperD w) (fieldK8 w)⟩,
  ⟨"ANDI_Rd_K", 0xF000#16, 0x7000#16, fun w _ => .andi (fieldUpperD w) (fieldK8 w)⟩]
def rowsDisplacement : List Row := [
  ⟨"LDD_Rd_Z+q", 0xD208#16, 0x8000#16, fun w _ => .lddZ (field84 w) (fieldQ w)⟩,
  ⟨"LDD_Rd_Y+q", 0xD208#16, 0x8008#16, fun w _ => .lddY (field84 w) (fieldQ w)⟩,
  ⟨"STD_Z+q_Rr", 0xD208#16, 0x8200#16, fun w _ => .stdZ (fieldQ w) (field84 w)⟩,
  ⟨"STD_Y+q_Rr", 0xD208#16, 0x8208#16, fun w _ => .stdY (fieldQ w) (field84 w)⟩]
def rowsLoad : List Row := [
  ⟨"LDS_Rd_k", 0xFE0F#16, 0x9000#16, fun w w1 => .lds (field84 w) w1⟩,
  ⟨"LD_Rd_Z+", 0xFE0F#16, 0x9001#16, fun w _ => .ldZInc (field84 w)⟩,
  ⟨"LD_Rd_-Z", 0xFE0F#16, 0x9002#16, fun w _ => .ldZDec (field84 w)⟩,
  ⟨"LD_Rd_Y+", 0xFE0F#16, 0x9009#16, fun w _ => .ldYInc (field84 w)⟩,
  ⟨"LD_Rd_-Y", 0xFE0F#16, 0x900A#16, fun w _ => .ldYDec (field84 w)⟩,
  ⟨"LD_Rd_X", 0xFE0F#16, 0x900C#16, fun w _ => .ldX (field84 w)⟩,
  ⟨"LD_Rd_X+", 0xFE0F#16, 0x900D#16, fun w _ => .ldXInc (field84 w)⟩,
  ⟨"LD_Rd_-X", 0xFE0F#16, 0x900E#16, fun w _ => .ldXDec (field84 w)⟩,
  ⟨"LPM_Rd_Z", 0xFE0F#16, 0x9004#16, fun w _ => .lpmZ (field84 w)⟩,
  ⟨"LPM_Rd_Z+", 0xFE0F#16, 0x9005#16, fun w _ => .lpmZInc (field84 w)⟩,
  ⟨"POP_Rd", 0xFE0F#16, 0x900F#16, fun w _ => .pop (field84 w)⟩]
def rowsStore : List Row := [
  ⟨"STS_k_Rr", 0xFE0F#16, 0x9200#16, fun w w1 => .sts w1 (field84 w)⟩,
  ⟨"ST_Z+_Rr", 0xFE0F#16, 0x9201#16, fun w _ => .stZInc (field84 w)⟩,
  ⟨"ST_-Z_Rr", 0xFE0F#16, 0x9202#16, fun w _ => .stZDec (field84 w)⟩,
  ⟨"ST_Y+_Rr", 0xFE0F#16, 0x9209#16, fun w _ => .stYInc (field84 w)⟩,
  ⟨"ST_-Y_Rr", 0xFE0F#16, 0x920A#16, fun w _ => .stYDec (field84 w)⟩,
  ⟨"ST_X_Rr", 0xFE0F#16, 0x920C#16, fun w _ => .stX (field84 w)⟩,
  ⟨"ST_X+_Rr", 0xFE0F#16, 0x920D#16, fun w _ => .stXInc (field84 w)⟩,
  ⟨"ST_-X_Rr", 0xFE0F#16, 0x920E#16, fun w _ => .stXDec (field84 w)⟩,
  ⟨"PUSH_Rr", 0xFE0F#16, 0x920F#16, fun w _ => .push (field84 w)⟩]
def rowsOneRegister : List Row := [
  ⟨"COM_Rd", 0xFE0F#16, 0x9400#16, fun w _ => .com (field84 w)⟩,
  ⟨"NEG_Rd", 0xFE0F#16, 0x9401#16, fun w _ => .neg (field84 w)⟩,
  ⟨"SWAP_Rd", 0xFE0F#16, 0x9402#16, fun w _ => .swap (field84 w)⟩,
  ⟨"INC_Rd", 0xFE0F#16, 0x9403#16, fun w _ => .inc (field84 w)⟩,
  ⟨"ASR_Rd", 0xFE0F#16, 0x9405#16, fun w _ => .asr (field84 w)⟩,
  ⟨"LSR_Rd", 0xFE0F#16, 0x9406#16, fun w _ => .lsr (field84 w)⟩,
  ⟨"ROR_Rd", 0xFE0F#16, 0x9407#16, fun w _ => .ror (field84 w)⟩,
  ⟨"DEC_Rd", 0xFE0F#16, 0x940A#16, fun w _ => .dec (field84 w)⟩]
def rowsControl : List Row := [
  ⟨"BSET_s", 0xFF8F#16, 0x9408#16, fun w _ => .bset (fieldS w)⟩,
  ⟨"BCLR_s", 0xFF8F#16, 0x9488#16, fun w _ => .bclr (fieldS w)⟩,
  ⟨"IJMP", 0xFFFF#16, 0x9409#16, fun _ _ => .ijmp⟩,
  ⟨"ICALL", 0xFFFF#16, 0x9509#16, fun _ _ => .icall⟩,
  ⟨"RET", 0xFFFF#16, 0x9508#16, fun _ _ => .ret⟩,
  ⟨"RETI", 0xFFFF#16, 0x9518#16, fun _ _ => .reti⟩,
  ⟨"SLEEP", 0xFFFF#16, 0x9588#16, fun _ _ => .sleep⟩,
  ⟨"BREAK", 0xFFFF#16, 0x9598#16, fun _ _ => .brk⟩,
  ⟨"WDR", 0xFFFF#16, 0x95A8#16, fun _ _ => .wdr⟩,
  ⟨"LPM", 0xFFFF#16, 0x95C8#16, fun _ _ => .lpmR0⟩,
  ⟨"SPM", 0xFFFF#16, 0x95E8#16, fun _ _ => .spm⟩,
  ⟨"JMP_k", 0xFE0E#16, 0x940C#16, fun w w1 => .jmp (fieldK22 w w1)⟩,
  ⟨"CALL_k", 0xFE0E#16, 0x940E#16, fun w w1 => .call (fieldK22 w w1)⟩]
def rowsWordAndIo : List Row := [
  ⟨"ADIW_Rd+1_Rd_K", 0xFF00#16, 0x9600#16, fun w _ => .adiw (fieldWordD w) (fieldK6 w)⟩,
  ⟨"SBIW_Rd+1_Rd_K", 0xFF00#16, 0x9700#16, fun w _ => .sbiw (fieldWordD w) (fieldK6 w)⟩,
  ⟨"CBI_A_b", 0xFF00#16, 0x9800#16, fun w _ => .cbi (fieldA5 w) (fieldB w)⟩,
  ⟨"SBIC_A_b", 0xFF00#16, 0x9900#16, fun w _ => .sbic (fieldA5 w) (fieldB w)⟩,
  ⟨"SBI_A_b", 0xFF00#16, 0x9A00#16, fun w _ => .sbi (fieldA5 w) (fieldB w)⟩,
  ⟨"SBIS_A_b", 0xFF00#16, 0x9B00#16, fun w _ => .sbis (fieldA5 w) (fieldB w)⟩,
  ⟨"MUL_Rd_Rr", 0xFC00#16, 0x9C00#16, fun w _ => .mul (field84 w) (fieldRr w)⟩,
  ⟨"IN_Rd_A", 0xF800#16, 0xB000#16, fun w _ => .inp (field84 w) (fieldA6 w)⟩,
  ⟨"OUT_A_Rr", 0xF800#16, 0xB800#16, fun w _ => .out (fieldA6 w) (field84 w)⟩]
def rowsRelative : List Row := [
  ⟨"RJMP_k", 0xF000#16, 0xC000#16, fun w _ => .rjmp (w.extractLsb' 0 12)⟩,
  ⟨"RCALL_k", 0xF000#16, 0xD000#16, fun w _ => .rcall (w.extractLsb' 0 12)⟩,
  ⟨"LDI_Rd_K", 0xF000#16, 0xE000#16, fun w _ => .ldi (fieldUpperD w) (fieldK8 w)⟩,
  ⟨"BRBS_s_k", 0xFC00#16, 0xF000#16, fun w _ => .brbs (fieldB w) (w.extractLsb' 3 7)⟩,
  ⟨"BRBC_s_k", 0xFC00#16, 0xF400#16, fun w _ => .brbc (fieldB w) (w.extractLsb' 3 7)⟩,
  ⟨"BLD_Rd_b", 0xFE08#16, 0xF800#16, fun w _ => .bld (field84 w) (fieldB w)⟩,
  ⟨"BST_Rd_b", 0xFE08#16, 0xFA00#16, fun w _ => .bst (field84 w) (fieldB w)⟩,
  ⟨"SBRC_Rr_b", 0xFE08#16, 0xFC00#16, fun w _ => .sbrc (field84 w) (fieldB w)⟩,
  ⟨"SBRS_Rr_b", 0xFE08#16, 0xFE00#16, fun w _ => .sbrs (field84 w) (fieldB w)⟩]

/-- The rows that a decoder needs (R77): every unmarked row but the four that are the q = 0 words
of LDD and STD (R79). No two match one word. -/
def opcodeRows : List Row :=
  rowsTwoRegisters ++ rowsImmediate ++ rowsDisplacement ++ rowsLoad ++
  rowsStore ++ rowsOneRegister ++ rowsControl ++ rowsWordAndIo ++ rowsRelative

/-- The row that w matches, if any; a word without one is reserved (R84). -/
def rowOf (w : Word) : Option Row := opcodeRows.find? (·.matches w)

/-! ## Names that share a word (R79, R80) -/

/-- SEC, SEZ, SEN, SEV, SES, SEH, SET, SEI: BSET s by its flag's name (R80). -/
def namedSet (s : BitNo) : Instr :=
  if s = 0 then .sec else if s = 1 then .sez else if s = 2 then .sen else if s = 3 then .sev
  else if s = 4 then .ses else if s = 5 then .seh else if s = 6 then .sett else .sei

/-- CLC, CLZ, CLN, CLV, CLS, CLH, CLT, CLI: BCLR s by its flag's name (R80). -/
def namedClear (s : BitNo) : Instr :=
  if s = 0 then .clc else if s = 1 then .clz else if s = 2 then .cln else if s = 3 then .clv
  else if s = 4 then .cls else if s = 5 then .clh else if s = 6 then .clt else .cli

/-- BRCS, BREQ, BRMI, BRVS, BRLT, BRHS, BRTS, BRIE: BRBS s,k by its flag's name (R80). -/
def namedBranchSet (s : BitNo) (k : BitVec 7) : Instr :=
  if s = 0 then .brcs k else if s = 1 then .breq k else if s = 2 then .brmi k
  else if s = 3 then .brvs k else if s = 4 then .brlt k else if s = 5 then .brhs k
  else if s = 6 then .brts k else .brie k

/-- BRCC, BRNE, BRPL, BRVC, BRGE, BRHC, BRTC, BRID: BRBC s,k by its flag's name (R80). -/
def namedBranchClear (s : BitNo) (k : BitVec 7) : Instr :=
  if s = 0 then .brcc k else if s = 1 then .brne k else if s = 2 then .brpl k
  else if s = 3 then .brvc k else if s = 4 then .brge k else if s = 5 then .brhc k
  else if s = 6 then .brtc k else .brid k

/-- The narrowest name of a word: the named form where R80 has one whose operands the word
fixes. ORI and ANDI keep their names, BRLO is read as BRCS and BRSH as BRCC, because the word
does not tell them apart. DESIGN CHOICE (entry 12): R79 and R80 leave the name to the decoder. -/
def narrowName : Instr → Instr
  | .add d r => if d = r then .lsl d else .add d r
  | .adc d r => if d = r then .rol d else .adc d r
  | .and d r => if d = r then .tst d else .and d r
  | .eor d r => if d = r then .clr d else .eor d r
  | .ldi d k => if k = 0xFF#8 then .ser d else .ldi d k
  | .bset s => namedSet s
  | .bclr s => namedClear s
  | .brbs s k => namedBranchSet s k
  | .brbc s k => namedBranchClear s k
  | .lddY d q => if q = 0#6 then .ldY d else .lddY d q
  | .lddZ d q => if q = 0#6 then .ldZ d else .lddZ d q
  | .stdY q r => if q = 0#6 then .stY r else .stdY q r
  | .stdZ q r => if q = 0#6 then .stZ r else .stdZ q r
  | i => i

/-- The base instruction whose word an instruction is (R80, R79): the row "Is" of R80. -/
def canonical : Instr → Instr
  | .mov d r => .mov d r
  | .movw d r => .movw d r
  | .ldi d k => .ldi d k
  | .ldX d => .ldX d
  | .ldXInc d => .ldXInc d
  | .ldXDec d => .ldXDec d
  | .ldY d => .lddY d 0#6
  | .ldYInc d => .ldYInc d
  | .ldYDec d => .ldYDec d
  | .lddY d q => .lddY d q
  | .ldZ d => .lddZ d 0#6
  | .ldZInc d => .ldZInc d
  | .ldZDec d => .ldZDec d
  | .lddZ d q => .lddZ d q
  | .lds d k => .lds d k
  | .stX r => .stX r
  | .stXInc r => .stXInc r
  | .stXDec r => .stXDec r
  | .stY r => .stdY 0#6 r
  | .stYInc r => .stYInc r
  | .stYDec r => .stYDec r
  | .stdY q r => .stdY q r
  | .stZ r => .stdZ 0#6 r
  | .stZInc r => .stZInc r
  | .stZDec r => .stZDec r
  | .stdZ q r => .stdZ q r
  | .sts k r => .sts k r
  | .lpmR0 => .lpmR0
  | .lpmZ d => .lpmZ d
  | .lpmZInc d => .lpmZInc d
  | .spm => .spm
  | .inp d a => .inp d a
  | .out a r => .out a r
  | .push r => .push r
  | .pop d => .pop d
  | .rjmp k => .rjmp k
  | .ijmp => .ijmp
  | .jmp k => .jmp k
  | .rcall k => .rcall k
  | .icall => .icall
  | .call k => .call k
  | .ret => .ret
  | .reti => .reti
  | .cpse d r => .cpse d r
  | .cp d r => .cp d r
  | .cpc d r => .cpc d r
  | .cpi d k => .cpi d k
  | .sbrc r b => .sbrc r b
  | .sbrs r b => .sbrs r b
  | .sbic a b => .sbic a b
  | .sbis a b => .sbis a b
  | .brbs s k => .brbs s k
  | .brbc s k => .brbc s k
  | .breq k => .brbs 1 k
  | .brne k => .brbc 1 k
  | .brcs k => .brbs 0 k
  | .brcc k => .brbc 0 k
  | .brsh k => .brbc 0 k
  | .brlo k => .brbs 0 k
  | .brmi k => .brbs 2 k
  | .brpl k => .brbc 2 k
  | .brge k => .brbc 4 k
  | .brlt k => .brbs 4 k
  | .brhs k => .brbs 5 k
  | .brhc k => .brbc 5 k
  | .brts k => .brbs 6 k
  | .brtc k => .brbc 6 k
  | .brvs k => .brbs 3 k
  | .brvc k => .brbc 3 k
  | .brie k => .brbs 7 k
  | .brid k => .brbc 7 k
  | .sbi a b => .sbi a b
  | .cbi a b => .cbi a b
  | .lsl d => .add d d
  | .lsr d => .lsr d
  | .rol d => .adc d d
  | .ror d => .ror d
  | .asr d => .asr d
  | .swap d => .swap d
  | .bset s => .bset s
  | .bclr s => .bclr s
  | .bst d b => .bst d b
  | .bld d b => .bld d b
  | .sec => .bset 0
  | .clc => .bclr 0
  | .sen => .bset 2
  | .cln => .bclr 2
  | .sez => .bset 1
  | .clz => .bclr 1
  | .sei => .bset 7
  | .cli => .bclr 7
  | .ses => .bset 4
  | .cls => .bclr 4
  | .sev => .bset 3
  | .clv => .bclr 3
  | .sett => .bset 6
  | .clt => .bclr 6
  | .seh => .bset 5
  | .clh => .bclr 5
  | .add d r => .add d r
  | .adc d r => .adc d r
  | .adiw d k => .adiw d k
  | .sub d r => .sub d r
  | .subi d k => .subi d k
  | .sbc d r => .sbc d r
  | .sbci d k => .sbci d k
  | .sbiw d k => .sbiw d k
  | .and d r => .and d r
  | .andi d k => .andi d k
  | .or d r => .or d r
  | .ori d k => .ori d k
  | .eor d r => .eor d r
  | .com d => .com d
  | .neg d => .neg d
  | .sbr d k => .ori d k
  | .cbr d k => .andi d (0xFF#8 - k)
  | .inc d => .inc d
  | .dec d => .dec d
  | .tst d => .and d d
  | .clr d => .eor d d
  | .ser d => .ldi d 0xFF#8
  | .mul d r => .mul d r
  | .muls d r => .muls d r
  | .mulsu d r => .mulsu d r
  | .fmul d r => .fmul d r
  | .fmuls d r => .fmuls d r
  | .fmulsu d r => .fmulsu d r
  | .nop => .nop
  | .sleep => .sleep
  | .wdr => .wdr
  | .brk => .brk

/-- The name under which the decoder reads an instruction's words. -/
def decoderSpelling (i : Instr) : Instr := narrowName (canonical i)

/-! ## Decoding (R71, R73, R74) -/

/-- Why no instruction can be read. -/
inductive DecodeError where
  /-- The first word is a reserved encoding (R84). -/
  | reserved (w : Word)
  /-- The bytes end inside the instruction. Only `decodeBytes` says so: program memory never ends
  (20_memory.md R52). -/
  | truncated
deriving DecidableEq, Repr

/-- The length in words of the instruction whose first word is w (R74). -/
def instrWords (w : Word) : Nat :=
  if w &&& 0xFE0F#16 = 0x9000#16 then 2        -- LDS
  else if w &&& 0xFE0F#16 = 0x9200#16 then 2   -- STS
  else if w &&& 0xFE0E#16 = 0x940C#16 then 2   -- JMP
  else if w &&& 0xFE0E#16 = 0x940E#16 then 2   -- CALL
  else 1

/-- The instruction of the words w0 and w1, w1 being the word after w0 (R71). A one-word
instruction does not look at w1. -/
def decodeWords (w0 w1 : Word) : Except DecodeError Instr :=
  match rowOf w0 with
  | none => .error (.reserved w0)
  | some row => .ok (narrowName (row.build w0 w1))

/-- The instruction at the head of the bytes of program memory, low byte of each word first
(20_memory.md R41, R73), and the bytes after it. -/
def decodeBytes : List Byte → Except DecodeError (Instr × List Byte)
  | b0 :: b1 :: rest =>
    let w0 : Word := b1 ++ b0
    if instrWords w0 = 2 then
      match rest with
      | b2 :: b3 :: rest2 => (decodeWords w0 (b3 ++ b2)).map (·, rest2)
      | _ => .error .truncated
    else (decodeWords w0 0#16).map (·, rest)
  | _ => .error .truncated

/-- The bytes of a word, low byte first (20_memory.md R41). -/
def wordBytes (w : Word) : List Byte := [w.extractLsb' 0 8, w.extractLsb' 8 8]

/-- The first word of an instruction whose bits are w, bit 0 the least significant bit of the
first word (the numbering of `spec/opcode_table.json`). -/
def tableWord0 (nbits w : Nat) : Word := BitVec.ofNat 16 (w % 2 ^ nbits)
/-- The second word of an instruction whose bits are w. -/
def tableWord1 (nbits w : Nat) : Word := BitVec.ofNat 16 (w % 2 ^ nbits / 65536)

/-- The instruction that the decoder reads from the bits w, laid out in bytes as program memory
holds them; bits from nbits up are 0 (entry 11). -/
def decodeTableWord (nbits w : Nat) : Option Instr :=
  match decodeBytes (wordBytes (tableWord0 nbits w) ++ wordBytes (tableWord1 nbits w)) with
  | .ok (i, _) => some i
  | .error _ => none

/-! ## Encoding (R72) -/

/-- A register number as a 5-bit field. -/
def reg5 (d : Reg) : BitVec 5 := BitVec.ofFin d
/-- A bit number as a 3-bit field. -/
def bit3 (b : BitNo) : BitVec 3 := BitVec.ofFin b

/-- Format RR: `oooo oord dddd rrrr`. -/
def encRR (op : BitVec 6) (d r : Reg) : Word :=
  op ++ (reg5 r).extractLsb' 4 1 ++ reg5 d ++ (reg5 r).extractLsb' 0 4
/-- Format RI8: `oooo KKKK dddd KKKK`. -/
def encRI8 (op : BitVec 4) (d : Reg) (k : Byte) : Word :=
  op ++ k.extractLsb' 4 4 ++ (reg5 d).extractLsb' 0 4 ++ k.extractLsb' 0 4
/-- Format R1: `1001 0ood dddd oooo`. -/
def encR1 (op : BitVec 7) (d : Reg) (low : BitVec 4) : Word := op ++ reg5 d ++ low
/-- Format RW: `0000 0001 dddd rrrr`, the fields d / 2 and r / 2. -/
def encRW (op : BitVec 8) (d r : Reg) : Word :=
  op ++ (reg5 d).extractLsb' 1 4 ++ (reg5 r).extractLsb' 1 4
/-- Format RM16: `0000 0010 dddd rrrr`. -/
def encRM16 (d r : Reg) : Word :=
  0b00000010#8 ++ (reg5 d).extractLsb' 0 4 ++ (reg5 r).extractLsb' 0 4
/-- Format RM8: `0000 0011 oddd orrr`. -/
def encRM8 (hi lo : BitVec 1) (d r : Reg) : Word :=
  0b00000011#8 ++ hi ++ (reg5 d).extractLsb' 0 3 ++ lo ++ (reg5 r).extractLsb' 0 3
/-- Format IW: `1001 011o KKdd KKKK`, dd = (d - 24) / 2. -/
def encIW (op : BitVec 8) (d : Reg) (k : BitVec 6) : Word :=
  op ++ k.extractLsb' 4 2 ++ (reg5 d).extractLsb' 1 2 ++ k.extractLsb' 0 4
/-- Format RQ: `10q0 qqsd dddd yqqq`. -/
def encRQ (s y : BitVec 1) (d : Reg) (q : BitVec 6) : Word :=
  0b10#2 ++ q.extractLsb' 5 1 ++ 0#1 ++ q.extractLsb' 3 2 ++ s ++ reg5 d ++ y ++ q.extractLsb' 0 3
/-- Format IO: `1011 sAAd dddd AAAA`. -/
def encIO (s : BitVec 1) (d : Reg) (a : IoAddr) : Word :=
  0b1011#4 ++ s ++ a.extractLsb' 4 2 ++ reg5 d ++ a.extractLsb' 0 4
/-- Format IOB: `1001 10oo AAAA Abbb`. -/
def encIOB (op : BitVec 2) (a : LowIoAddr) (b : BitNo) : Word := 0b100110#6 ++ op ++ a ++ bit3 b
/-- Format REL12: `110o kkkk kkkk kkkk`. -/
def encRel12 (op : BitVec 4) (k : BitVec 12) : Word := op ++ k
/-- Format BR: `1111 0okk kkkk ksss`. -/
def encBR (op : BitVec 1) (k : BitVec 7) (s : BitNo) : Word := 0b11110#5 ++ op ++ k ++ bit3 s
/-- Format RB: `1111 1ood dddd 0bbb`. -/
def encRB (op : BitVec 2) (d : Reg) (b : BitNo) : Word :=
  0b11111#5 ++ op ++ reg5 d ++ 0#1 ++ bit3 b
/-- Format SB: `1001 0100 osss 1000`. -/
def encSB (op : BitVec 1) (s : BitNo) : Word := 0b10010100#8 ++ op ++ bit3 s ++ 0b1000#4
/-- Format A22: `1001 010k kkkk 11ok` and the low word of k. -/
def encA22 (op : BitVec 1) (k : BitVec 22) : List Word :=
  [0b1001010#7 ++ k.extractLsb' 17 5 ++ 0b11#2 ++ op ++ k.extractLsb' 16 1, k.extractLsb' 0 16]
/-- Format A16: `1001 00sd dddd 0000` and k. -/
def encA16 (s : BitVec 1) (d : Reg) (k : Word) : List Word :=
  [0b100100#6 ++ s ++ reg5 d ++ 0b0000#4, k]

/-- The words of a well-formed instruction, first word first (R72, R77). The K field of CBR holds
$FF - K (R80). -/
def encode : Instr → List Word
  | .mov d r => [encRR 0b001011#6 d r]
  | .movw d r => [encRW 0b00000001#8 d r]
  | .ldi d k => [encRI8 0b1110#4 d k]
  | .ldX d => [encR1 0b1001000#7 d 0b1100#4]
  | .ldXInc d => [encR1 0b1001000#7 d 0b1101#4]
  | .ldXDec d => [encR1 0b1001000#7 d 0b1110#4]
  | .ldY d => [encRQ 0#1 1#1 d 0#6]
  | .ldYInc d => [encR1 0b1001000#7 d 0b1001#4]
  | .ldYDec d => [encR1 0b1001000#7 d 0b1010#4]
  | .lddY d q => [encRQ 0#1 1#1 d q]
  | .ldZ d => [encRQ 0#1 0#1 d 0#6]
  | .ldZInc d => [encR1 0b1001000#7 d 0b0001#4]
  | .ldZDec d => [encR1 0b1001000#7 d 0b0010#4]
  | .lddZ d q => [encRQ 0#1 0#1 d q]
  | .lds d k => encA16 0#1 d k
  | .stX r => [encR1 0b1001001#7 r 0b1100#4]
  | .stXInc r => [encR1 0b1001001#7 r 0b1101#4]
  | .stXDec r => [encR1 0b1001001#7 r 0b1110#4]
  | .stY r => [encRQ 1#1 1#1 r 0#6]
  | .stYInc r => [encR1 0b1001001#7 r 0b1001#4]
  | .stYDec r => [encR1 0b1001001#7 r 0b1010#4]
  | .stdY q r => [encRQ 1#1 1#1 r q]
  | .stZ r => [encRQ 1#1 0#1 r 0#6]
  | .stZInc r => [encR1 0b1001001#7 r 0b0001#4]
  | .stZDec r => [encR1 0b1001001#7 r 0b0010#4]
  | .stdZ q r => [encRQ 1#1 0#1 r q]
  | .sts k r => encA16 1#1 r k
  | .lpmR0 => [0x95C8#16]
  | .lpmZ d => [encR1 0b1001000#7 d 0b0100#4]
  | .lpmZInc d => [encR1 0b1001000#7 d 0b0101#4]
  | .spm => [0x95E8#16]
  | .inp d a => [encIO 0#1 d a]
  | .out a r => [encIO 1#1 r a]
  | .push r => [encR1 0b1001001#7 r 0b1111#4]
  | .pop d => [encR1 0b1001000#7 d 0b1111#4]
  | .rjmp k => [encRel12 0b1100#4 k]
  | .ijmp => [0x9409#16]
  | .jmp k => encA22 0#1 k
  | .rcall k => [encRel12 0b1101#4 k]
  | .icall => [0x9509#16]
  | .call k => encA22 1#1 k
  | .ret => [0x9508#16]
  | .reti => [0x9518#16]
  | .cpse d r => [encRR 0b000100#6 d r]
  | .cp d r => [encRR 0b000101#6 d r]
  | .cpc d r => [encRR 0b000001#6 d r]
  | .cpi d k => [encRI8 0b0011#4 d k]
  | .sbrc r b => [encRB 0b10#2 r b]
  | .sbrs r b => [encRB 0b11#2 r b]
  | .sbic a b => [encIOB 0b01#2 a b]
  | .sbis a b => [encIOB 0b11#2 a b]
  | .brbs s k => [encBR 0#1 k s]
  | .brbc s k => [encBR 1#1 k s]
  | .breq k => [encBR 0#1 k 1]
  | .brne k => [encBR 1#1 k 1]
  | .brcs k => [encBR 0#1 k 0]
  | .brcc k => [encBR 1#1 k 0]
  | .brsh k => [encBR 1#1 k 0]
  | .brlo k => [encBR 0#1 k 0]
  | .brmi k => [encBR 0#1 k 2]
  | .brpl k => [encBR 1#1 k 2]
  | .brge k => [encBR 1#1 k 4]
  | .brlt k => [encBR 0#1 k 4]
  | .brhs k => [encBR 0#1 k 5]
  | .brhc k => [encBR 1#1 k 5]
  | .brts k => [encBR 0#1 k 6]
  | .brtc k => [encBR 1#1 k 6]
  | .brvs k => [encBR 0#1 k 3]
  | .brvc k => [encBR 1#1 k 3]
  | .brie k => [encBR 0#1 k 7]
  | .brid k => [encBR 1#1 k 7]
  | .sbi a b => [encIOB 0b10#2 a b]
  | .cbi a b => [encIOB 0b00#2 a b]
  | .lsl d => [encRR 0b000011#6 d d]
  | .lsr d => [encR1 0b1001010#7 d 0b0110#4]
  | .rol d => [encRR 0b000111#6 d d]
  | .ror d => [encR1 0b1001010#7 d 0b0111#4]
  | .asr d => [encR1 0b1001010#7 d 0b0101#4]
  | .swap d => [encR1 0b1001010#7 d 0b0010#4]
  | .bset s => [encSB 0#1 s]
  | .bclr s => [encSB 1#1 s]
  | .bst d b => [encRB 0b01#2 d b]
  | .bld d b => [encRB 0b00#2 d b]
  | .sec => [encSB 0#1 0]
  | .clc => [encSB 1#1 0]
  | .sen => [encSB 0#1 2]
  | .cln => [encSB 1#1 2]
  | .sez => [encSB 0#1 1]
  | .clz => [encSB 1#1 1]
  | .sei => [encSB 0#1 7]
  | .cli => [encSB 1#1 7]
  | .ses => [encSB 0#1 4]
  | .cls => [encSB 1#1 4]
  | .sev => [encSB 0#1 3]
  | .clv => [encSB 1#1 3]
  | .sett => [encSB 0#1 6]
  | .clt => [encSB 1#1 6]
  | .seh => [encSB 0#1 5]
  | .clh => [encSB 1#1 5]
  | .add d r => [encRR 0b000011#6 d r]
  | .adc d r => [encRR 0b000111#6 d r]
  | .adiw d k => [encIW 0b10010110#8 d k]
  | .sub d r => [encRR 0b000110#6 d r]
  | .subi d k => [encRI8 0b0101#4 d k]
  | .sbc d r => [encRR 0b000010#6 d r]
  | .sbci d k => [encRI8 0b0100#4 d k]
  | .sbiw d k => [encIW 0b10010111#8 d k]
  | .and d r => [encRR 0b001000#6 d r]
  | .andi d k => [encRI8 0b0111#4 d k]
  | .or d r => [encRR 0b001010#6 d r]
  | .ori d k => [encRI8 0b0110#4 d k]
  | .eor d r => [encRR 0b001001#6 d r]
  | .com d => [encR1 0b1001010#7 d 0b0000#4]
  | .neg d => [encR1 0b1001010#7 d 0b0001#4]
  | .sbr d k => [encRI8 0b0110#4 d k]
  | .cbr d k => [encRI8 0b0111#4 d (0xFF#8 - k)]
  | .inc d => [encR1 0b1001010#7 d 0b0011#4]
  | .dec d => [encR1 0b1001010#7 d 0b1010#4]
  | .tst d => [encRR 0b001000#6 d d]
  | .clr d => [encRR 0b001001#6 d d]
  | .ser d => [encRI8 0b1110#4 d 0xFF#8]
  | .mul d r => [encRR 0b100111#6 d r]
  | .muls d r => [encRM16 d r]
  | .mulsu d r => [encRM8 0#1 0#1 d r]
  | .fmul d r => [encRM8 0#1 1#1 d r]
  | .fmuls d r => [encRM8 1#1 0#1 d r]
  | .fmulsu d r => [encRM8 1#1 1#1 d r]
  | .nop => [0x0000#16]
  | .sleep => [0x9588#16]
  | .wdr => [0x95A8#16]
  | .brk => [0x9598#16]

end Sys2Proof
end

