-- ==== Sys2Proof/Config.lean ====
section
/-! DEFINITION. What a run fixes (00_scope.md R8) and the free values: the bytes that the
devices return to reads, and what the environment supplies at a boundary. -/
namespace Sys2Proof.Config

/-- The parameters of a run that the spec leaves open (00_scope.md R8). They are constant:
no step changes them. -/
structure Params where
  /-- Word address of the interrupt vector table (60_exceptions.md R326). -/
  vectorBase : ProgAddr
  /-- Word address of the first instruction after a reset (70_reset_and_hazards.md R363). -/
  resetPc : ProgAddr
  /-- Whether BREAK runs as NOP (44_mcu_control.md R303). -/
  breakIsNop : Bool
deriving DecidableEq, Repr

/-- The defaults the spec names: vectors and reset at $0000 (60_exceptions.md R326,
70_reset_and_hazards.md R363), BREAK not a NOP (92_eei_decisions.md D13; entry 10). -/
def Params.default : Params := { vectorBase := 0#14, resetPc := 0#14, breakIsNop := false }

/-- The byte that a device returns to the n-th device read of the run, made of I/O address a
(20_memory.md R50). A free value: it has no body, nothing constrains it (entry 7). -/
opaque deviceDraw (n : Nat) (a : IoAddr) : Byte

/-- Whether the environment delivers a reset at the n-th boundary of the run
(70_reset_and_hazards.md R360). A free value, as above (entry 6). -/
opaque resetDraw (n : Nat) : Bool

/-- Whether the source with this vector number requests at the n-th boundary of the run
(60_exceptions.md R323). A free value, as above (entry 6). -/
opaque requestDraw (n vector : Nat) : Bool

end Sys2Proof.Config
end

