-- ==== Sys2Proof/Machine/State.lean ====
section
/-! DEFINITION. The state of the machine as plain data, the reasons a step can stop, and the state
right after reset (10_state.md, 70_reset_and_hazards.md section 1). -/
namespace Sys2Proof.Machine

/-- Bytes by address in one canonical form: addresses strictly rising, no entry equal to what an
unlisted address reads as (`Memory.wf` in Machine/Memory.lean). -/
abbrev Memory := List Host.Cell

/-- The interrupt sources, vectors 2 to 21 (60_exceptions.md R322), in the order of their vectors. -/
inductive IntVector where
  | int0 | int1 | int2
  | timer2Comp | timer2Ovf
  | timer1Capt | timer1CompA | timer1CompB | timer1Ovf
  | timer0Comp | timer0Ovf
  | spiStc
  | usartRxc | usartUdre | usartTxc
  | adcDone | eeReady | anaComp | twi | spmReady
deriving DecidableEq, Repr

/-- What the core tells its environment, in program order. -/
inductive Event where
  /-- A write of `v` to the device register at I/O address `a` (20_memory.md R50). -/
  | deviceWrite (a : IoAddr) (v : Byte)
  /-- WDR was executed (44_mcu_control.md R302). -/
  | watchdogRestart
  /-- The interrupt of this source was taken (60_exceptions.md R327). -/
  | interruptTaken (n : IntVector)
deriving DecidableEq, Repr

/-- What the environment supplies at one instruction boundary (60_exceptions.md R323, R324):
whether it delivers a reset, and the sources that are requesting. -/
structure EnvInput where
  reset : Bool
  requests : List IntVector
deriving DecidableEq, Repr

/-- The environment that does nothing. -/
def EnvInput.quiet : EnvInput := { reset := false, requests := [] }

/-- What the environment supplies at every boundary after those that `State.env` lists (entry 6). -/
inductive EnvRest where
  /-- A free input at each: the draws of `Config.resetDraw` and `Config.requestDraw`, constrained by
  nothing (60_exceptions.md R323). -/
  | free
  /-- This input at each: a request that never ends, or no reset and no request any more. -/
  | always (e : EnvInput)
deriving DecidableEq, Repr

/-- The machine. -/
structure State where
  /-- R0 to R31 (10_state.md R10). -/
  regs : Vector Byte 32
  /-- The program counter, a word address (R13, R15). -/
  pc : ProgAddr
  /-- SREG: I T H S V N Z C from bit 7 to bit 0 (R16). -/
  sreg : Byte
  /-- SP, seen as SPH and SPL (R20). -/
  sp : BitVec 12
  /-- MCUCR (R25, R26). -/
  mcucr : Byte
  /-- irq_delay: the last instruction changed I from 0 to 1 (R29, 60_exceptions.md R325). -/
  irqDelay : Bool
  /-- The core sleeps (R29, 44_mcu_control.md R301). -/
  sleeping : Bool
  /-- The core is in the stopped mode (R29, 44_mcu_control.md R303). -/
  stopped : Bool
  /-- Internal SRAM by data address (20_memory.md R43). -/
  sram : Memory
  /-- Program memory by byte address, two bytes a word, low byte first (20_memory.md R41, R52). -/
  flash : Memory
  /-- The byte the program wrote last to each device register since the last reset, by I/O
  address: what EnableGated of 60_exceptions.md R323 speaks of (entry 9). -/
  ioWritten : Memory
  /-- The events so far, the latest last (20_memory.md R50). -/
  events : List Event
  /-- What the environment supplies at the coming boundaries, one entry each (60_exceptions.md R323;
  entry 6). -/
  env : List EnvInput
  /-- What it supplies at every boundary after those (60_exceptions.md R323; entry 6). -/
  envRest : EnvRest
  /-- The model's own field: how many boundaries the run has passed. It indexes the free inputs
  (60_exceptions.md R323; entry 6). -/
  boundaries : Nat
  /-- The model's own field: how many device reads were made so far. It indexes the free values of
  `Config.deviceDraw` (20_memory.md R50; entry 7). -/
  draws : Nat
  /-- The parameters of the run (00_scope.md R8). -/
  params : Config.Params
deriving DecidableEq, Repr

/-- A place that does not exist or holds nothing: reasons of `Refused` (60_exceptions.md R321) that
name one. The chip does something there that no source gives; stopping is safe (entry 5). -/
inductive Fault where
  /-- `UnimplementedDataAddress`: a data read or write above RAMEND, raised by `memRead` and
  `memWrite` (20_memory.md R44, R45, R47). Safe. -/
  | unimplementedDataAddress (a : DataAddr)
  /-- `ProgramAddressOutOfRange`: LPM at a byte address beyond the flash, raised by `progByte`
  (20_memory.md R53). Safe. -/
  | programAddressOutOfRange (b : BitVec 16)
  /-- `JumpTargetOutOfRange`: JMP, CALL, IJMP or ICALL to a word address beyond the flash, raised by
  `jumpTarget` (41_branch.md R189). Safe. -/
  | jumpTargetOutOfRange (k : Nat)
  /-- `ReadOfUnwrittenState`: a read of an SRAM byte that nothing has written since reset, raised by
  `memRead` (20_memory.md R69). Safe. -/
  | readOfUnwrittenState (a : DataAddr)
deriving DecidableEq, Repr

/-- The other reasons of `Refused` (60_exceptions.md R321): the spec gives the step no meaning.
Stopping is safe (entry 5). -/
inductive Refusal where
  /-- An instruction that has no meaning in the model yet. No arm raises it. Safe. -/
  | notModelled (mnemonic : String)
  /-- `IllegalInstruction`: the word at pc is a reserved encoding, raised by `fetch`
  (30_encoding.md R84). Safe. -/
  | illegalInstruction (w : Word)
  /-- `SelfProgrammingNotModelled`: SPM, raised by `execSpm` (40_data_transfer.md R141), or a write
  to SPMCR with SPMEN set, raised by `ioWrite` (20_memory.md R49). Safe. -/
  | selfProgrammingNotModelled
  /-- `VectorMoveNotModelled`: a write to GICR with IVSEL or IVCE set, raised by `ioWrite`
  (20_memory.md R49). Safe. -/
  | vectorMoveNotModelled
  /-- `StackPointerSelfAccess`: a stack write onto SPL or SPH, raised by `push8` (20_memory.md R56).
  Safe. -/
  | stackPointerSelfAccess
  /-- `PointerRegisterOverlap`: an incrementing or decrementing form whose data register is half of
  its pointer (40_data_transfer.md R134). Safe. -/
  | pointerRegisterOverlap
  /-- `PointerSelfAccess`: an incrementing or decrementing LD or ST at the data address of its own
  pointer's registers (40_data_transfer.md R134). Safe. -/
  | pointerSelfAccess
deriving DecidableEq, Repr

/-- The machine right after reset (70_reset_and_hazards.md R360 to R365, 10_state.md R30): pc at
RESET_PC, SREG, SP and MCUCR zero, nothing delayed, asleep or stopped, no memory byte listed, a free
environment at every boundary (60_exceptions.md R323). The spec gives the general registers no value (R364): $00 each is a DESIGN CHOICE (entry 1). -/
def State.reset : State where
  regs := Vector.replicate 32 0#8
  pc := Config.Params.default.resetPc
  sreg := 0#8
  sp := 0#12
  mcucr := 0#8
  irqDelay := false
  sleeping := false
  stopped := false
  sram := []
  flash := []
  ioWritten := []
  events := []
  env := []
  envRest := .free
  boundaries := 0
  draws := 0
  params := Config.Params.default

end Sys2Proof.Machine
end

