-- ==== Sys2Proof/Machine/Memory.lean ====
section
/-! DEFINITION. Memories as lists of cells, and the address map of the ATmega32 (20_memory.md). -/
namespace Sys2Proof.Machine

/-- The three memories of `State`. -/
inductive Space where
  | sram
  | flash
  | ioWritten
deriving DecidableEq, Repr

/-- What an unlisted address reads as: in program memory the erased byte $FF (20_memory.md R52,
entry 4); elsewhere no value (20_memory.md R69, entry 3). -/
def unlisted : Space → Option Byte
  | .sram => none
  | .flash => some 0xFF#8
  | .ioWritten => none

/-- The byte listed at an address. -/
def listedAt : Memory → Nat → Option Byte
  | [], _ => none
  | (k, v) :: rest, a => if k = a then some v else listedAt rest a

/-- One byte of a memory; none where it holds no value. -/
def Memory.read (sp : Space) (m : Memory) (a : Nat) : Option Byte :=
  match listedAt m a with
  | some v => some v
  | none => unlisted sp

/-- The memory with v listed at a. -/
def listAt : Memory → Nat → Byte → Memory
  | [], a, v => [(a, v)]
  | (k, w) :: rest, a, v =>
    if a < k then (a, v) :: (k, w) :: rest
    else if a = k then (a, v) :: rest
    else (k, w) :: listAt rest a v

/-- The memory with nothing listed at a. -/
def unlistAt : Memory → Nat → Memory
  | [], _ => []
  | (k, w) :: rest, a => if k = a then unlistAt rest a else (k, w) :: unlistAt rest a

/-- A write of one byte: what an unlisted address reads as is not listed. -/
def Memory.write (sp : Space) (m : Memory) (a : Nat) (v : Byte) : Memory :=
  if unlisted sp = some v then unlistAt m a else listAt m a v

/-- Addresses strictly rise. -/
def rising : Memory → Bool
  | [] => true
  | [_] => true
  | (k, _) :: (k2, v2) :: rest => decide (k < k2) && rising ((k2, v2) :: rest)

/-- The canonical form. -/
def Memory.wf (sp : Space) (m : Memory) : Bool :=
  rising m && m.all (fun c => decide (unlisted sp ≠ some c.2))

/-! ## The address map (20_memory.md R43, 00_scope.md R5, R6) -/

/-- The first I/O register's data address (00_scope.md section 4, IO_BASE). -/
def ioBase : DataAddr := 0x0020#16
/-- The first SRAM address, SRAM_START (00_scope.md section 4). -/
def sramStart : DataAddr := 0x0060#16
/-- RAMEND, the last SRAM address (00_scope.md R6). -/
def ramEnd : DataAddr := 0x085F#16
/-- FLASH_WORDS (00_scope.md R5). -/
def flashWords : Nat := 16384

/-- Where a data address leads (20_memory.md R43). -/
inductive DataPlace where
  | register (r : Reg)
  | io (a : IoAddr)
  | sram
  | nothing
deriving DecidableEq, Repr

/-- The layout of the data space (20_memory.md R43 to R45). -/
def dataPlace (a : DataAddr) : DataPlace :=
  if a < ioBase then .register (a.extractLsb' 0 5).toFin
  else if a < sramStart then .io ((a - ioBase).extractLsb' 0 6)
  else if a ≤ ramEnd then .sram
  else .nothing

/-- The data address of a general register (10_state.md R27). -/
def regAddr (r : Reg) : DataAddr := BitVec.ofNat 16 r.val
/-- The data address of an I/O register (20_memory.md R43). -/
def ioDataAddr (a : IoAddr) : DataAddr := a.setWidth 16 + ioBase

end Sys2Proof.Machine
end

