-- ==== Sys2Proof/Machine/Ops.lean ====
section
/-! DEFINITION. The named operations over registers, I/O space, data space, the stack and program
memory (20_memory.md), and the entry into and the return from an interrupt (60_exceptions.md R327,
R328), the only exceptions of this hardware (R320). -/
namespace Sys2Proof.Machine

/-- The outcome of an operation: a value, or the reason the step stops. -/
abbrev Res (α : Type) := Host.Outcome α Fault Refusal

/-- Go on with the value of an operation, or stop as it stopped. -/
def Res.bind {α β : Type} (x : Res α) (f : α → Res β) : Res β :=
  match x with
  | .next v => f v
  | .fault e => .fault e
  | .refused e => .refused e

/-! ## General registers (10_state.md R10, R12) -/

/-- `R[r]`. -/
def State.reg (s : State) (r : Reg) : Byte := s.regs[r]

/-- `R[d] <- v`. -/
def State.setReg (s : State) (d : Reg) (v : Byte) : State := { s with regs := s.regs.set d v }

/-- `RP[r]`: the pair whose low byte is R[r] (10_state.md R12, 20_memory.md R40). -/
def State.pair (s : State) (r : Reg) : BitVec 16 := s.reg (r + 1) ++ s.reg r

/-- `RP[d] <- v`. -/
def State.setPair (s : State) (d : Reg) (v : BitVec 16) : State :=
  (s.setReg d (v.extractLsb' 0 8)).setReg (d + 1) (v.extractLsb' 8 8)

/-! ## pc and SREG (10_state.md R13 to R16) -/

/-- `pc <- pc + n`, modulo 2^14 (10_state.md R15). -/
def State.advance (s : State) (n : Nat) : State := { s with pc := s.pc + BitVec.ofNat 14 n }

/-- `pc <- t`. -/
def State.jumpTo (s : State) (t : ProgAddr) : State := { s with pc := t }

/-- `SREG <- v`, all eight bits, by an instruction that cannot raise I. -/
def State.setSreg (s : State) (v : Byte) : State := { s with sreg := v }

/-- Bit b of v. -/
def bitOf (v : Byte) (b : BitNo) : Bool := v.getLsbD b.val

/-- v with bit b set to x. -/
def withBit (v : Byte) (b : BitNo) (x : Bool) : Byte :=
  if x then v ||| (1#8 <<< b.val) else v &&& ~~~(1#8 <<< b.val)

/-- `SREG[b]`. -/
def State.flag (s : State) (b : BitNo) : Bool := bitOf s.sreg b

/-- The bits of SREG (10_state.md R16). -/
def flagC : BitNo := 0
def flagZ : BitNo := 1
def flagN : BitNo := 2
def flagV : BitNo := 3
def flagS : BitNo := 4
def flagH : BitNo := 5
def flagT : BitNo := 6
def flagI : BitNo := 7

/-- SREG replaced by v with the interrupt delay of an I that changes from 0 to 1
(20_memory.md R49, 60_exceptions.md R325). -/
def State.writeSreg (s : State) (v : Byte) : State :=
  { s with sreg := v, irqDelay := s.irqDelay || (!bitOf s.sreg flagI && bitOf v flagI) }

/-! ## The I/O space (20_memory.md R48 to R50) -/

/-- SPH: bits 11 to 8 of SP, its bits 7 to 4 read as 0 (10_state.md R20). -/
def State.sph (s : State) : Byte := 0#4 ++ s.sp.extractLsb' 8 4
/-- SPL: bits 7 to 0 of SP. -/
def State.spl (s : State) : Byte := s.sp.extractLsb' 0 8

/-- `DeviceRead(A)`: a draw (20_memory.md R50). -/
def deviceRead (s : State) (a : IoAddr) : Byte × State :=
  (Config.deviceDraw s.draws a, { s with draws := s.draws + 1 })

/-- `DeviceWrite(A, v)`: an event (20_memory.md R50). -/
def deviceWrite (s : State) (a : IoAddr) (v : Byte) : State :=
  { s with
    events := s.events ++ [.deviceWrite a v]
    ioWritten := Memory.write .ioWritten s.ioWritten a.toNat v }

/-- `IoRead(A)` (20_memory.md R48). -/
def ioRead (s : State) (a : IoAddr) : Byte × State :=
  if a = 0x3F#6 then (s.sreg, s)
  else if a = 0x3E#6 then (s.sph, s)
  else if a = 0x3D#6 then (s.spl, s)
  else if a = 0x35#6 then (s.mcucr, s)
  else deviceRead s a

/-- `IoWrite(A, v)` (20_memory.md R49). A write to MCUCR is shown to the devices without an event
of the device oracle (DEDUCED, entry 14). -/
def ioWrite (s : State) (a : IoAddr) (v : Byte) : Res State :=
  if a = 0x3F#6 then .next (s.writeSreg v)
  else if a = 0x3E#6 then .next { s with sp := v.extractLsb' 0 4 ++ s.sp.extractLsb' 0 8 }
  else if a = 0x3D#6 then .next { s with sp := s.sp.extractLsb' 8 4 ++ v }
  else if a = 0x35#6 then .next { s with mcucr := v }
  else if a = 0x37#6 ∧ bitOf v 0 = true then .refused .selfProgrammingNotModelled
  else if a = 0x3B#6 ∧ (bitOf v 1 = true ∨ bitOf v 0 = true) then .refused .vectorMoveNotModelled
  else .next (deviceWrite s a v)

/-! ## The data space (20_memory.md R44, R45) -/

/-- `MemRead(a, 1)` (20_memory.md R44, R69). The state changes by a device read's draw only. -/
def memRead (s : State) (a : DataAddr) : Res (Byte × State) :=
  match dataPlace a with
  | .register r => .next (s.reg r, s)
  | .io p => .next (ioRead s p)
  | .sram =>
    match Memory.read .sram s.sram a.toNat with
    | some v => .next (v, s)
    | none => .fault (.readOfUnwrittenState a)
  | .nothing => .fault (.unimplementedDataAddress a)

/-- `MemWrite(a, 1, v)` (20_memory.md R45). -/
def memWrite (s : State) (a : DataAddr) (v : Byte) : Res State :=
  match dataPlace a with
  | .register r => .next (s.setReg r v)
  | .io p => ioWrite s p v
  | .sram => .next { s with sram := Memory.write .sram s.sram a.toNat v }
  | .nothing => .fault (.unimplementedDataAddress a)

/-! ## The stack (20_memory.md R56 to R59) -/

/-- The data address SP names (10_state.md R20). -/
def State.spAddr (s : State) : DataAddr := s.sp.setWidth 16

/-- `Push8(v)` (20_memory.md R56). -/
def push8 (s : State) (v : Byte) : Res State :=
  if s.sp = 0x05D#12 ∨ s.sp = 0x05E#12 then .refused .stackPointerSelfAccess
  else (memWrite s s.spAddr v).bind fun t => .next { t with sp := t.sp - 1#12 }

/-- `Pop8()` (20_memory.md R57). -/
def pop8 (s : State) : Res (Byte × State) :=
  let t := { s with sp := s.sp + 1#12 }
  memRead t t.spAddr

/-- `PushPC(a)`: the low byte, then the high byte (20_memory.md R58, R42; entry 17). -/
def pushPC (s : State) (a : ProgAddr) : Res State :=
  let w : BitVec 16 := a.setWidth 16
  (push8 s (w.extractLsb' 0 8)).bind fun t => push8 t (w.extractLsb' 8 8)

/-- `PopPC()`: the high byte, then the low byte, truncated to 14 bits (20_memory.md R59). -/
def popPC (s : State) : Res (ProgAddr × State) :=
  (pop8 s).bind fun hi => (pop8 hi.2).bind fun lo =>
    .next ((hi.1 ++ lo.1).setWidth 14, lo.2)

/-! ## Program memory (20_memory.md R52, R53) -/

/-- The byte of program memory at a byte address; no byte is without a value (20_memory.md R52). -/
def State.flashByte (s : State) (b : Nat) : Byte :=
  match Memory.read .flash s.flash b with
  | some v => v
  | none => 0xFF#8

/-- `ProgWord(a)` (20_memory.md R52, byte order R41). -/
def State.progWord (s : State) (a : ProgAddr) : Word :=
  s.flashByte (2 * a.toNat + 1) ++ s.flashByte (2 * a.toNat)

/-- `ProgByte(b)` (20_memory.md R53). -/
def progByte (s : State) (b : BitVec 16) : Res Byte :=
  if flashWords ≤ b.toNat / 2 then .fault (.programAddressOutOfRange b)
  else
    let w := s.progWord (BitVec.ofNat 14 (b.toNat / 2))
    .next (if b.getLsbD 0 then w.extractLsb' 8 8 else w.extractLsb' 0 8)

/-- The word w stored at the word address a of program memory, as the loader does it
(00_scope.md R8; entry 11). No instruction does. -/
def State.storeProgWord (s : State) (a : ProgAddr) (w : Word) : State :=
  { s with
    flash := Memory.write .flash (Memory.write .flash s.flash (2 * a.toNat) (w.extractLsb' 0 8))
      (2 * a.toNat + 1) (w.extractLsb' 8 8) }

/-! ## Interrupt entry and return (60_exceptions.md R322, R326 to R328) -/

/-- The vector number of a source (60_exceptions.md R322). -/
def vectorNumber : IntVector → Nat
  | .int0 => 2
  | .int1 => 3
  | .int2 => 4
  | .timer2Comp => 5
  | .timer2Ovf => 6
  | .timer1Capt => 7
  | .timer1CompA => 8
  | .timer1CompB => 9
  | .timer1Ovf => 10
  | .timer0Comp => 11
  | .timer0Ovf => 12
  | .spiStc => 13
  | .usartRxc => 14
  | .usartUdre => 15
  | .usartTxc => 16
  | .adcDone => 17
  | .eeReady => 18
  | .anaComp => 19
  | .twi => 20
  | .spmReady => 21

/-- The word address of a source's vector: VECTOR_BASE + 2 (n - 1) (60_exceptions.md R326). -/
def vectorAddress (s : State) (n : IntVector) : ProgAddr :=
  s.params.vectorBase + BitVec.ofNat 14 (2 * (vectorNumber n - 1))

/-- `InterruptEntry(n)` (60_exceptions.md R327): the return address on the stack, I cleared, awake,
pc at the vector, the event. A refused push refuses all of it. -/
def interruptEntry (s : State) (n : IntVector) : Res State :=
  (pushPC s s.pc).bind fun t =>
    .next { t with
      sreg := withBit t.sreg flagI false
      sleeping := false
      pc := vectorAddress t n
      events := t.events ++ [.interruptTaken n] }

/-- The return from an interrupt (60_exceptions.md R328, 41_branch.md R157): the popped address
to pc, I set, the delay if I was 0. -/
def interruptReturn (s : State) : Res State :=
  (popPC s).bind fun p =>
    .next ((p.2.writeSreg (withBit p.2.sreg flagI true)).jumpTo p.1)

end Sys2Proof.Machine
end

