-- ==== Sys2Proof/Machine/Flags.lean ====
section
/-! DEFINITION. The flags of the arithmetic instructions: the helpers of 00_scope.md section 5.2 and
the rows of 10_state.md R18 that they do not cover, and the writes of SREG of R19. The formulas are
the spec's own general knowledge (UNVERIFIED, entry 18). -/
namespace Sys2Proof.Machine

/-- A result with the six arithmetic flags. -/
structure Alu where
  res : Byte
  h : Bool
  s : Bool
  v : Bool
  n : Bool
  z : Bool
  c : Bool
deriving DecidableEq, Repr

/-- A flag as the number it adds. -/
def carryNat (c : Bool) : Nat := if c then 1 else 0

/-- `AddFlags(a, b, cin)` (00_scope.md section 5.2). -/
def addFlags (a b : Byte) (cin : Bool) : Alu :=
  let sum := a.toNat + b.toNat + carryNat cin
  let r := BitVec.ofNat 8 sum
  let v := a.msb == b.msb && r.msb != a.msb
  { res := r
    h := decide (16 ≤ a.toNat % 16 + b.toNat % 16 + carryNat cin)
    s := r.msb != v
    v := v
    n := r.msb
    z := r == 0#8
    c := decide (256 ≤ sum) }

/-- `SubFlags(a, b, cin)`, a - b - cin (00_scope.md section 5.2). -/
def subFlags (a b : Byte) (cin : Bool) : Alu :=
  let diff : Int := (a.toNat : Int) - (b.toNat : Int) - (carryNat cin : Int)
  let r := BitVec.ofInt 8 diff
  let v := a.msb != b.msb && r.msb != a.msb
  { res := r
    h := decide (((a.toNat % 16 : Nat) : Int) - ((b.toNat % 16 : Nat) : Int) - (carryNat cin : Int) < 0)
    s := r.msb != v
    v := v
    n := r.msb
    z := r == 0#8
    c := decide (diff < 0) }

/-- The subtractions that take Z in: Z = Z' and SREG.Z (43_arithmetic_logic.md R255, R256,
41_branch.md R160). -/
def Alu.chainZ (x : Alu) (z : Bool) : Alu := { x with z := x.z && z }

/-- H, S, V, N, Z, C written; I and T kept (10_state.md R19). -/
def writeHSVNZC (sreg : Byte) (x : Alu) : Byte :=
  withBit (withBit (withBit (withBit (withBit (withBit sreg flagH x.h) flagS x.s) flagV x.v)
    flagN x.n) flagZ x.z) flagC x.c

/-- S, V, N, Z, C written with S = N xor V; I, T and H kept (10_state.md R19). -/
def writeSVNZC (sreg : Byte) (v n z c : Bool) : Byte :=
  withBit (withBit (withBit (withBit (withBit sreg flagS (n != v)) flagV v) flagN n) flagZ z) flagC c

/-- S, V, N, Z written with S = N xor V; I, T, H and C kept (10_state.md R19). -/
def writeSVNZ (sreg : Byte) (v n z : Bool) : Byte :=
  withBit (withBit (withBit (withBit sreg flagS (n != v)) flagV v) flagN n) flagZ z

/-- The flags of the logic instructions: V cleared, N and Z of the result, S = N; I, T, H and C kept
(43_arithmetic_logic.md section 4). -/
def writeLogic (sreg : Byte) (res : Byte) : Byte := writeSVNZ sreg false res.msb (res == 0#8)

/-- Z and C written; all else kept (10_state.md R19, the multiplies). -/
def writeZC (sreg : Byte) (z c : Bool) : Byte := withBit (withBit sreg flagZ z) flagC c

end Sys2Proof.Machine
end

