-- ==== Sys2Proof/Machine/Operands.lean ====
section
/-! DEFINITION. The operand forms: the pointers of the indirect forms (40_data_transfer.md R134,
R135), targets of jumps and branches (41_branch.md R187, R189), skips (R186). -/
namespace Sys2Proof.Machine

/-- The pointer registers X = R27:R26, Y = R29:R28, Z = R31:R30 (10_state.md R12). -/
inductive Pointer where
  | x
  | y
  | z
deriving DecidableEq, Repr

/-- The low register of a pointer (10_state.md R12). -/
def pointerLow : Pointer → Reg
  | .x => 26
  | .y => 28
  | .z => 30

/-- The value of a pointer. -/
def State.pointer (s : State) (p : Pointer) : DataAddr := s.pair (pointerLow p)

/-- A pointer written, both its bytes (40_data_transfer.md R135). -/
def State.setPointer (s : State) (p : Pointer) (a : DataAddr) : State := s.setPair (pointerLow p) a

/-- The data register is half of the pointer (40_data_transfer.md R134). -/
def overlaps (p : Pointer) (r : Reg) : Bool := r == pointerLow p || r == pointerLow p + 1

/-- The data address is one of the pointer's own registers (40_data_transfer.md R134). -/
def isOwnAddress (p : Pointer) (a : DataAddr) : Bool :=
  a == regAddr (pointerLow p) || a == regAddr (pointerLow p + 1)

/-- An incrementing or decrementing form at the data address a with the data register r: it stops
where R134 of 40_data_transfer.md refuses it, else it goes on. -/
def guardPointer (p : Pointer) (r : Reg) (a : DataAddr) (go : Res State) : Res State :=
  if overlaps p r then .refused .pointerRegisterOverlap
  else if isOwnAddress p a then .refused .pointerSelfAccess
  else go

/-- The displaced address of LDD and STD (40_data_transfer.md R135). -/
def displaced (s : State) (p : Pointer) (q : BitVec 6) : DataAddr := s.pointer p + q.setWidth 16

/-! ## Loads and stores of 40_data_transfer.md sections 3 and 4 -/

/-- `R[d] <- MemRead(a, 1); pc <- pc + n`. -/
def loadFrom (s : State) (d : Reg) (a : DataAddr) (n : Nat) : Res State :=
  (memRead s a).bind fun p => .next ((p.2.setReg d p.1).advance n)

/-- `MemWrite(a, 1, R[r]); pc <- pc + n`. -/
def storeTo (s : State) (r : Reg) (a : DataAddr) (n : Nat) : Res State :=
  (memWrite s a (s.reg r)).bind fun t => .next (t.advance n)

/-- `LD Rd,P+`: address P, then P + 1 (R104, R107, R111). -/
def loadPostInc (s : State) (p : Pointer) (d : Reg) : Res State :=
  let a := s.pointer p
  guardPointer p d a <|
    (memRead s a).bind fun v => .next (((v.2.setPointer p (a + 1#16)).setReg d v.1).advance 1)

/-- `LD Rd,-P`: P - 1 is the address and the new P (R105, R108, R112). -/
def loadPreDec (s : State) (p : Pointer) (d : Reg) : Res State :=
  let a := s.pointer p - 1#16
  guardPointer p d a <|
    (memRead s a).bind fun v => .next (((v.2.setPointer p a).setReg d v.1).advance 1)

/-- `ST P+,Rr`: address P, then P + 1 (R116, R119, R123). -/
def storePostInc (s : State) (p : Pointer) (r : Reg) : Res State :=
  let a := s.pointer p
  guardPointer p r a <|
    (memWrite s a (s.reg r)).bind fun t => .next ((t.setPointer p (a + 1#16)).advance 1)

/-- `ST -P,Rr`: P - 1 is the address and the new P (R117, R120, R124). -/
def storePreDec (s : State) (p : Pointer) (r : Reg) : Res State :=
  let a := s.pointer p - 1#16
  guardPointer p r a <|
    (memWrite s a (s.reg r)).bind fun t => .next ((t.setPointer p a).advance 1)

/-! ## Targets and skips -/

/-- `pc + 1 + signed(k)`, modulo 2^14 (41_branch.md R187). -/
def relTarget {w : Nat} (s : State) (k : BitVec w) : ProgAddr := s.pc + 1#14 + k.signExtend 14

/-- An absolute target, refused from FLASH_WORDS on (41_branch.md R189). -/
def jumpTarget (t : Nat) : Res ProgAddr :=
  if flashWords ≤ t then .fault (.jumpTargetOutOfRange t) else .next (BitVec.ofNat 14 t)

/-- The address after the instruction at pc + 1 (41_branch.md R186, 30_encoding.md R74). -/
def skipTarget (s : State) : ProgAddr :=
  s.pc + 1#14 + BitVec.ofNat 14 (instrWords (s.progWord (s.pc + 1#14)))

/-- A skip: over the next instruction when the condition holds, else to it (41_branch.md R186). -/
def skipIf (s : State) (cond : Bool) : State :=
  s.jumpTo (if cond then skipTarget s else s.pc + 1#14)

/-- A conditional branch on bit b of SREG being x (41_branch.md R190). -/
def branchIf (s : State) (b : BitNo) (x : Bool) (k : BitVec 7) : State :=
  s.jumpTo (if s.flag b = x then relTarget s k else s.pc + 1#14)

/-- A call of t that returns to a (41_branch.md R153 to R155). -/
def callTo (s : State) (a t : ProgAddr) : Res State :=
  (pushPC s a).bind fun u => .next (u.jumpTo t)

/-! ## Results with flags (43_arithmetic_logic.md) -/

/-- `R[d] <- x.res; SREG.(H,S,V,N,Z,C) <- x`, then pc + 1. -/
def aluResult (s : State) (d : Reg) (x : Alu) : State :=
  ((s.setReg d x.res).setSreg (writeHSVNZC s.sreg x)).advance 1

/-- The flags of a comparison, then pc + 1. -/
def aluFlags (s : State) (x : Alu) : State := (s.setSreg (writeHSVNZC s.sreg x)).advance 1

/-- `R[d] <- res` with the flags of the logic instructions, then pc + 1
(43_arithmetic_logic.md section 4). -/
def logicResult (s : State) (d : Reg) (res : Byte) : State :=
  ((s.setReg d res).setSreg (writeLogic s.sreg res)).advance 1

/-- A right shift's result: C = bit 0 of the operand a, N and Z of the result, V = N xor C
(42_bit_and_bit_test.md R203, R205, R206). -/
def shiftRightResult (s : State) (d : Reg) (a res : Byte) : State :=
  let c := a.getLsbD 0
  let n := res.msb
  ((s.setReg d res).setSreg (writeSVNZC s.sreg (n != c) n (res == 0#8) c)).advance 1

/-- A left shift's result: C = bit 7 and H = bit 3 of the operand a, V = N xor C
(42_bit_and_bit_test.md R202, R204). -/
def shiftLeftResult (s : State) (d : Reg) (a res : Byte) : State :=
  let c := a.getLsbD 7
  let n := res.msb
  let v := n != c
  aluResult s d
    { res := res, h := a.getLsbD 3, s := n != v, v := v, n := n, z := res == 0#8, c := c }

/-- `R1:R0 <- res`, C = bit 15 of the product, Z of res, then pc + 1
(43_arithmetic_logic.md R278). -/
def productResult (s : State) (p res : BitVec 16) : State :=
  ((s.setPair 0 res).setSreg (writeZC s.sreg (res == 0#16) p.msb)).advance 1

/-- The integer products modulo 2^16 (43_arithmetic_logic.md R278). -/
def productOf (a b : Int) : BitVec 16 := BitVec.ofInt 16 (a * b)

/-- A flag of SREG set or cleared, then pc + 1; a set of I that was 0 delays interrupts
(42_bit_and_bit_test.md R208, R209, R218). -/
def putFlag (s : State) (b : BitNo) (x : Bool) : State :=
  (s.writeSreg (withBit s.sreg b x)).advance 1

end Sys2Proof.Machine
end

