-- ==== Sys2Proof/Machine/Boundary.lean ====
section
/-! DEFINITION. What happens at an instruction boundary: reset, interrupt, idling or an instruction
(60_exceptions.md R324, R330, R331), and the fetch (30_encoding.md R71). -/
namespace Sys2Proof.Machine

/-- The sources in the order of their vector numbers (60_exceptions.md R322, R330). -/
def vectorOrder : List IntVector :=
  [.int0, .int1, .int2, .timer2Comp, .timer2Ovf, .timer1Capt, .timer1CompA, .timer1CompB,
   .timer1Ovf, .timer0Comp, .timer0Ovf, .spiStc, .usartRxc, .usartUdre, .usartTxc, .adcDone,
   .eeReady, .anaComp, .twi, .spmReady]

/-- `min(Req)`: the requesting source with the lowest vector number (60_exceptions.md R330). -/
def mostUrgent (req : List IntVector) : Option IntVector :=
  vectorOrder.find? fun n => req.contains n

/-- The free input at the n-th boundary of the run: any reset, any requests (60_exceptions.md R323,
70_reset_and_hazards.md R360; entry 6). -/
def drawnInput (n : Nat) : EnvInput :=
  { reset := Config.resetDraw n
    requests := vectorOrder.filter fun v => Config.requestDraw n (vectorNumber v) }

/-- What the environment supplies k boundaries from now (entry 6). -/
def State.inputAt (s : State) (k : Nat) : EnvInput :=
  match s.env[k]?, s.envRest with
  | some e, _ => e
  | none, .always e => e
  | none, .free => drawnInput (s.boundaries + k)

/-- What the environment supplies at this boundary. -/
def envInput (s : State) : EnvInput := s.inputAt 0

/-- The state with that input consumed. -/
def State.pastInput (s : State) : State :=
  { s with env := s.env.tail, boundaries := s.boundaries + 1 }

/-- The one thing that happens at a boundary (60_exceptions.md R331). -/
inductive BoundaryEvent where
  | reset
  | stopped
  | interrupt (n : IntVector)
  | asleep
  | instruction
deriving DecidableEq, Repr

/-- An interrupt may be taken: I is 1 and no delay runs (60_exceptions.md R324, R325). -/
def State.interruptible (s : State) : Bool := s.flag flagI && !s.irqDelay

/-- Which one it is (60_exceptions.md R324, R331). -/
def boundaryEvent (e : EnvInput) (s : State) : BoundaryEvent :=
  if e.reset then .reset
  else if s.stopped then .stopped
  else match (if s.interruptible then mostUrgent e.requests else none) with
    | some n => .interrupt n
    | none => if s.sleeping then .asleep else .instruction

/-- A reset in a run (70_reset_and_hazards.md R360): the core as after reset, pc at RESET_PC; what
lies outside the core stays: program memory, the record of events, the environment's schedule, the
counts of boundaries and draws, the parameters. -/
def warmReset (s : State) : State :=
  { State.reset with
    pc := s.params.resetPc
    flash := s.flash
    events := s.events
    env := s.env
    envRest := s.envRest
    boundaries := s.boundaries
    draws := s.draws
    params := s.params }

/-- The state in which the instruction at pc executes: `irq_delay <- 0` (60_exceptions.md R324). -/
def State.beforeInstruction (s : State) : State := { s with irqDelay := false }

/-- The instruction at pc (30_encoding.md R71, R84). -/
def fetch (s : State) : Res Instr :=
  match decodeWords (s.progWord s.pc) (s.progWord (s.pc + 1#14)) with
  | .ok i => .next i
  | .error (.reserved w) => .refused (.illegalInstruction w)
  | .error .truncated => .refused (.illegalInstruction (s.progWord s.pc))

/-- `Step` of 60_exceptions.md R324, `run` being the execution of one instruction. Stopped or
asleep, the core does nothing at this boundary (entry 19). -/
def atBoundary (run : State → Res State) (s : State) : Res State :=
  let t := s.pastInput
  match boundaryEvent (envInput s) s with
  | .reset => .next (warmReset t)
  | .stopped => .next t
  | .interrupt n => interruptEntry t n
  | .asleep => .next t
  | .instruction => run t.beforeInstruction

/-- The state with the two words at pc and pc + 1, awake, running, and with a quiet coming boundary:
the state from which the next step fetches w0 (entry 11). -/
def State.placeWords (s : State) (w0 w1 : Word) : State :=
  { (s.storeProgWord s.pc w0).storeProgWord (s.pc + 1#14) w1 with
    stopped := false
    sleeping := false
    env := .quiet :: s.env }

end Sys2Proof.Machine
end

