-- ==== Sys2Proof/Machine/ArithLogic.lean ====
section
/-! DEFINITION. The arithmetic and logic instructions, each with the meaning that its rule of 43_arithmetic_logic.md gives it. -/
namespace Sys2Proof.Machine

/-- `ADD Rd,Rr` (R250). -/
def execAdd (d : Reg) (r : Reg) (s : State) : Res State :=
  .next (aluResult s d (addFlags (s.reg d) (s.reg r) false))

/-- `ADC Rd,Rr` (R251). -/
def execAdc (d : Reg) (r : Reg) (s : State) : Res State :=
  .next (aluResult s d (addFlags (s.reg d) (s.reg r) (s.flag flagC)))

/-- `ADIW Rd+1:Rd,K` (R252). -/
def execAdiw (d : Reg) (k : BitVec 6) (s : State) : Res State :=
  let a := s.pair d
  let res := a + k.setWidth 16
  .next (((s.setPair d res).setSreg
    (writeSVNZC s.sreg (!a.msb && res.msb) res.msb (res == 0#16) (a.msb && !res.msb))).advance 1)

/-- `SUB Rd,Rr` (R253). -/
def execSub (d : Reg) (r : Reg) (s : State) : Res State :=
  .next (aluResult s d (subFlags (s.reg d) (s.reg r) false))

/-- `SUBI Rd,K` (R254). -/
def execSubi (d : Reg) (k : Byte) (s : State) : Res State :=
  .next (aluResult s d (subFlags (s.reg d) k false))

/-- `SBC Rd,Rr` (R255). -/
def execSbc (d : Reg) (r : Reg) (s : State) : Res State :=
  .next (aluResult s d ((subFlags (s.reg d) (s.reg r) (s.flag flagC)).chainZ (s.flag flagZ)))

/-- `SBCI Rd,K` (R256). -/
def execSbci (d : Reg) (k : Byte) (s : State) : Res State :=
  .next (aluResult s d ((subFlags (s.reg d) k (s.flag flagC)).chainZ (s.flag flagZ)))

/-- `SBIW Rd+1:Rd,K` (R257). -/
def execSbiw (d : Reg) (k : BitVec 6) (s : State) : Res State :=
  let a := s.pair d
  let res := a - k.setWidth 16
  .next (((s.setPair d res).setSreg
    (writeSVNZC s.sreg (a.msb && !res.msb) res.msb (res == 0#16) (res.msb && !a.msb))).advance 1)

/-- `AND Rd,Rr` (R258). -/
def execAnd (d : Reg) (r : Reg) (s : State) : Res State :=
  .next (logicResult s d (s.reg d &&& s.reg r))

/-- `ANDI Rd,K` (R259). -/
def execAndi (d : Reg) (k : Byte) (s : State) : Res State :=
  .next (logicResult s d (s.reg d &&& k))

/-- `OR Rd,Rr` (R260). -/
def execOr (d : Reg) (r : Reg) (s : State) : Res State :=
  .next (logicResult s d (s.reg d ||| s.reg r))

/-- `ORI Rd,K` (R261). -/
def execOri (d : Reg) (k : Byte) (s : State) : Res State :=
  .next (logicResult s d (s.reg d ||| k))

/-- `EOR Rd,Rr` (R262). -/
def execEor (d : Reg) (r : Reg) (s : State) : Res State :=
  .next (logicResult s d (if d = r then 0#8 else s.reg d ^^^ s.reg r))

/-- `COM Rd` (R263). -/
def execCom (d : Reg) (s : State) : Res State :=
  let res := 0xFF#8 - s.reg d
  .next (((s.setReg d res).setSreg
    (writeSVNZC s.sreg false res.msb (res == 0#8) true)).advance 1)

/-- `NEG Rd` (R264). -/
def execNeg (d : Reg) (s : State) : Res State :=
  .next (aluResult s d (subFlags 0#8 (s.reg d) false))

/-- `SBR Rd,K` (R265). -/
def execSbr (d : Reg) (k : Byte) (s : State) : Res State :=
  .next (logicResult s d (s.reg d ||| k))

/-- `CBR Rd,K` (R266). -/
def execCbr (d : Reg) (k : Byte) (s : State) : Res State :=
  .next (logicResult s d (s.reg d &&& (0xFF#8 - k)))

/-- `INC Rd` (R267). -/
def execInc (d : Reg) (s : State) : Res State :=
  let res := s.reg d + 1#8
  .next (((s.setReg d res).setSreg
    (writeSVNZ s.sreg (res == 0x80#8) res.msb (res == 0#8))).advance 1)

/-- `DEC Rd` (R268). -/
def execDec (d : Reg) (s : State) : Res State :=
  let res := s.reg d - 1#8
  .next (((s.setReg d res).setSreg
    (writeSVNZ s.sreg (res == 0x7F#8) res.msb (res == 0#8))).advance 1)

/-- `TST Rd` (R269). -/
def execTst (d : Reg) (s : State) : Res State :=
  .next ((s.setSreg (writeLogic s.sreg (s.reg d))).advance 1)

/-- `CLR Rd` (R270). -/
def execClr (d : Reg) (s : State) : Res State :=
  .next (((s.setReg d 0#8).setSreg (writeSVNZ s.sreg false false true)).advance 1)

/-- `SER Rd` (R271). -/
def execSer (d : Reg) (s : State) : Res State :=
  .next ((s.setReg d 0xFF#8).advance 1)

/-- `MUL Rd,Rr` (R272). -/
def execMul (d : Reg) (r : Reg) (s : State) : Res State :=
  let p := productOf ((s.reg d).toNat : Int) ((s.reg r).toNat : Int)
  .next (productResult s p p)

/-- `MULS Rd,Rr` (R273). -/
def execMuls (d : Reg) (r : Reg) (s : State) : Res State :=
  let p := productOf (s.reg d).toInt (s.reg r).toInt
  .next (productResult s p p)

/-- `MULSU Rd,Rr` (R274). -/
def execMulsu (d : Reg) (r : Reg) (s : State) : Res State :=
  let p := productOf (s.reg d).toInt ((s.reg r).toNat : Int)
  .next (productResult s p p)

/-- `FMUL Rd,Rr` (R275). -/
def execFmul (d : Reg) (r : Reg) (s : State) : Res State :=
  let p := productOf ((s.reg d).toNat : Int) ((s.reg r).toNat : Int)
  .next (productResult s p (p <<< 1))

/-- `FMULS Rd,Rr` (R276). -/
def execFmuls (d : Reg) (r : Reg) (s : State) : Res State :=
  let p := productOf (s.reg d).toInt (s.reg r).toInt
  .next (productResult s p (p <<< 1))

/-- `FMULSU Rd,Rr` (R277). -/
def execFmulsu (d : Reg) (r : Reg) (s : State) : Res State :=
  let p := productOf (s.reg d).toInt ((s.reg r).toNat : Int)
  .next (productResult s p (p <<< 1))

end Sys2Proof.Machine
end

