-- ==== Sys2Proof/Machine/BitOps.lean ====
section
/-! DEFINITION. The bit and bit-test instructions, each with the meaning that its rule of 42_bit_and_bit_test.md gives it. -/
namespace Sys2Proof.Machine

/-- `SBI A,b` (R200). A read and a write of the whole register (20_memory.md R60). -/
def execSbi (a : LowIoAddr) (b : BitNo) (s : State) : Res State :=
  let p := ioRead s (a.setWidth 6)
  (ioWrite p.2 (a.setWidth 6) (withBit p.1 b true)).bind fun t => .next (t.advance 1)

/-- `CBI A,b` (R201). A read and a write of the whole register (20_memory.md R60). -/
def execCbi (a : LowIoAddr) (b : BitNo) (s : State) : Res State :=
  let p := ioRead s (a.setWidth 6)
  (ioWrite p.2 (a.setWidth 6) (withBit p.1 b false)).bind fun t => .next (t.advance 1)

/-- `LSL Rd` (R202). -/
def execLsl (d : Reg) (s : State) : Res State :=
  let a := s.reg d
  .next (shiftLeftResult s d a (a <<< 1))

/-- `LSR Rd` (R203). -/
def execLsr (d : Reg) (s : State) : Res State :=
  let a := s.reg d
  .next (shiftRightResult s d a (a >>> 1))

/-- `ROL Rd` (R204). -/
def execRol (d : Reg) (s : State) : Res State :=
  let a := s.reg d
  .next (shiftLeftResult s d a (withBit (a <<< 1) 0 (s.flag flagC)))

/-- `ROR Rd` (R205). -/
def execRor (d : Reg) (s : State) : Res State :=
  let a := s.reg d
  .next (shiftRightResult s d a (withBit (a >>> 1) 7 (s.flag flagC)))

/-- `ASR Rd` (R206). -/
def execAsr (d : Reg) (s : State) : Res State :=
  let a := s.reg d
  .next (shiftRightResult s d a (withBit (a >>> 1) 7 (bitOf a 7)))

/-- `SWAP Rd` (R207). -/
def execSwap (d : Reg) (s : State) : Res State :=
  let a := s.reg d
  .next ((s.setReg d (a.extractLsb' 0 4 ++ a.extractLsb' 4 4)).advance 1)

/-- `BSET s` (R208). -/
def execBset (s0 : BitNo) (s : State) : Res State :=
  .next (putFlag s s0 true)

/-- `BCLR s` (R209). -/
def execBclr (s0 : BitNo) (s : State) : Res State :=
  .next (putFlag s s0 false)

/-- `BST Rd,b` (R210). -/
def execBst (d : Reg) (b : BitNo) (s : State) : Res State :=
  .next ((s.setSreg (withBit s.sreg flagT (bitOf (s.reg d) b))).advance 1)

/-- `BLD Rd,b` (R211). -/
def execBld (d : Reg) (b : BitNo) (s : State) : Res State :=
  .next ((s.setReg d (withBit (s.reg d) b (s.flag flagT))).advance 1)

/-- `SEC` (R212). -/
def execSec (s : State) : Res State :=
  .next (putFlag s flagC true)

/-- `CLC` (R213). -/
def execClc (s : State) : Res State :=
  .next (putFlag s flagC false)

/-- `SEN` (R214). -/
def execSen (s : State) : Res State :=
  .next (putFlag s flagN true)

/-- `CLN` (R215). -/
def execCln (s : State) : Res State :=
  .next (putFlag s flagN false)

/-- `SEZ` (R216). -/
def execSez (s : State) : Res State :=
  .next (putFlag s flagZ true)

/-- `CLZ` (R217). -/
def execClz (s : State) : Res State :=
  .next (putFlag s flagZ false)

/-- `SEI` (R218). If I was 0 the next instruction runs before any interrupt (60_exceptions.md R325). -/
def execSei (s : State) : Res State :=
  .next (putFlag s flagI true)

/-- `CLI` (R219). -/
def execCli (s : State) : Res State :=
  .next (putFlag s flagI false)

/-- `SES` (R220). -/
def execSes (s : State) : Res State :=
  .next (putFlag s flagS true)

/-- `CLS` (R221). -/
def execCls (s : State) : Res State :=
  .next (putFlag s flagS false)

/-- `SEV` (R222). -/
def execSev (s : State) : Res State :=
  .next (putFlag s flagV true)

/-- `CLV` (R223). -/
def execClv (s : State) : Res State :=
  .next (putFlag s flagV false)

/-- `SET` (R224). -/
def execSett (s : State) : Res State :=
  .next (putFlag s flagT true)

/-- `CLT` (R225). -/
def execClt (s : State) : Res State :=
  .next (putFlag s flagT false)

/-- `SEH` (R226). -/
def execSeh (s : State) : Res State :=
  .next (putFlag s flagH true)

/-- `CLH` (R227). -/
def execClh (s : State) : Res State :=
  .next (putFlag s flagH false)

end Sys2Proof.Machine
end

