-- ==== Sys2Proof/Machine/Branch.lean ====
section
/-! DEFINITION. The branch, call, compare and skip instructions, each with the meaning that its rule of 41_branch.md gives it. -/
namespace Sys2Proof.Machine

/-- `RJMP k` (R150). -/
def execRjmp (k : BitVec 12) (s : State) : Res State :=
  .next (s.jumpTo (relTarget s k))

/-- `IJMP` (R151). -/
def execIjmp (s : State) : Res State :=
  (jumpTarget (s.pointer .z).toNat).bind fun t => .next (s.jumpTo t)

/-- `JMP k` (R152). -/
def execJmp (k : BitVec 22) (s : State) : Res State :=
  (jumpTarget k.toNat).bind fun t => .next (s.jumpTo t)

/-- `RCALL k` (R153). -/
def execRcall (k : BitVec 12) (s : State) : Res State :=
  callTo s (s.pc + 1#14) (relTarget s k)

/-- `ICALL` (R154). -/
def execIcall (s : State) : Res State :=
  (jumpTarget (s.pointer .z).toNat).bind fun t => callTo s (s.pc + 1#14) t

/-- `CALL k` (R155). -/
def execCall (k : BitVec 22) (s : State) : Res State :=
  (jumpTarget k.toNat).bind fun t => callTo s (s.pc + 2#14) t

/-- `RET` (R156). -/
def execRet (s : State) : Res State :=
  (popPC s).bind fun p => .next (p.2.jumpTo p.1)

/-- `RETI` (R157). -/
def execReti (s : State) : Res State :=
  interruptReturn s

/-- `CPSE Rd,Rr` (R158). -/
def execCpse (d : Reg) (r : Reg) (s : State) : Res State :=
  .next (skipIf s (s.reg d == s.reg r))

/-- `CP Rd,Rr` (R159). -/
def execCp (d : Reg) (r : Reg) (s : State) : Res State :=
  .next (aluFlags s (subFlags (s.reg d) (s.reg r) false))

/-- `CPC Rd,Rr` (R160). -/
def execCpc (d : Reg) (r : Reg) (s : State) : Res State :=
  .next (aluFlags s ((subFlags (s.reg d) (s.reg r) (s.flag flagC)).chainZ (s.flag flagZ)))

/-- `CPI Rd,K` (R161). -/
def execCpi (d : Reg) (k : Byte) (s : State) : Res State :=
  .next (aluFlags s (subFlags (s.reg d) k false))

/-- `SBRC Rr,b` (R162). -/
def execSbrc (r : Reg) (b : BitNo) (s : State) : Res State :=
  .next (skipIf s (!bitOf (s.reg r) b))

/-- `SBRS Rr,b` (R163). -/
def execSbrs (r : Reg) (b : BitNo) (s : State) : Res State :=
  .next (skipIf s (bitOf (s.reg r) b))

/-- `SBIC A,b` (R164). -/
def execSbic (a : LowIoAddr) (b : BitNo) (s : State) : Res State :=
  let p := ioRead s (a.setWidth 6)
  .next (skipIf p.2 (!bitOf p.1 b))

/-- `SBIS A,b` (R165). -/
def execSbis (a : LowIoAddr) (b : BitNo) (s : State) : Res State :=
  let p := ioRead s (a.setWidth 6)
  .next (skipIf p.2 (bitOf p.1 b))

/-- `BRBS s,k` (R166). -/
def execBrbs (s0 : BitNo) (k : BitVec 7) (s : State) : Res State :=
  .next (branchIf s s0 true k)

/-- `BRBC s,k` (R167). -/
def execBrbc (s0 : BitNo) (k : BitVec 7) (s : State) : Res State :=
  .next (branchIf s s0 false k)

/-- `BREQ k` (R168). -/
def execBreq (k : BitVec 7) (s : State) : Res State :=
  .next (branchIf s flagZ true k)

/-- `BRNE k` (R169). -/
def execBrne (k : BitVec 7) (s : State) : Res State :=
  .next (branchIf s flagZ false k)

/-- `BRCS k` (R170). -/
def execBrcs (k : BitVec 7) (s : State) : Res State :=
  .next (branchIf s flagC true k)

/-- `BRCC k` (R171). -/
def execBrcc (k : BitVec 7) (s : State) : Res State :=
  .next (branchIf s flagC false k)

/-- `BRSH k` (R172). -/
def execBrsh (k : BitVec 7) (s : State) : Res State :=
  .next (branchIf s flagC false k)

/-- `BRLO k` (R173). -/
def execBrlo (k : BitVec 7) (s : State) : Res State :=
  .next (branchIf s flagC true k)

/-- `BRMI k` (R174). -/
def execBrmi (k : BitVec 7) (s : State) : Res State :=
  .next (branchIf s flagN true k)

/-- `BRPL k` (R175). -/
def execBrpl (k : BitVec 7) (s : State) : Res State :=
  .next (branchIf s flagN false k)

/-- `BRGE k` (R176). -/
def execBrge (k : BitVec 7) (s : State) : Res State :=
  .next (branchIf s flagS false k)

/-- `BRLT k` (R177). -/
def execBrlt (k : BitVec 7) (s : State) : Res State :=
  .next (branchIf s flagS true k)

/-- `BRHS k` (R178). -/
def execBrhs (k : BitVec 7) (s : State) : Res State :=
  .next (branchIf s flagH true k)

/-- `BRHC k` (R179). -/
def execBrhc (k : BitVec 7) (s : State) : Res State :=
  .next (branchIf s flagH false k)

/-- `BRTS k` (R180). -/
def execBrts (k : BitVec 7) (s : State) : Res State :=
  .next (branchIf s flagT true k)

/-- `BRTC k` (R181). -/
def execBrtc (k : BitVec 7) (s : State) : Res State :=
  .next (branchIf s flagT false k)

/-- `BRVS k` (R182). -/
def execBrvs (k : BitVec 7) (s : State) : Res State :=
  .next (branchIf s flagV true k)

/-- `BRVC k` (R183). -/
def execBrvc (k : BitVec 7) (s : State) : Res State :=
  .next (branchIf s flagV false k)

/-- `BRIE k` (R184). -/
def execBrie (k : BitVec 7) (s : State) : Res State :=
  .next (branchIf s flagI true k)

/-- `BRID k` (R185). -/
def execBrid (k : BitVec 7) (s : State) : Res State :=
  .next (branchIf s flagI false k)

end Sys2Proof.Machine
end

