-- ==== Sys2Proof/Machine/DataTransfer.lean ====
section
/-! DEFINITION. The data transfer instructions, each with the meaning that its rule of 40_data_transfer.md gives it. -/
namespace Sys2Proof.Machine

/-- `MOV Rd,Rr` (R100). -/
def execMov (d : Reg) (r : Reg) (s : State) : Res State :=
  .next ((s.setReg d (s.reg r)).advance 1)

/-- `MOVW Rd,Rr` (R101). -/
def execMovw (d : Reg) (r : Reg) (s : State) : Res State :=
  .next ((s.setPair d (s.pair r)).advance 1)

/-- `LDI Rd,K` (R102). -/
def execLdi (d : Reg) (k : Byte) (s : State) : Res State :=
  .next ((s.setReg d k).advance 1)

/-- `LD Rd,X` (R103). -/
def execLdX (d : Reg) (s : State) : Res State :=
  loadFrom s d (s.pointer .x) 1

/-- `LD Rd,X+` (R104). -/
def execLdXInc (d : Reg) (s : State) : Res State :=
  loadPostInc s .x d

/-- `LD Rd,-X` (R105). -/
def execLdXDec (d : Reg) (s : State) : Res State :=
  loadPreDec s .x d

/-- `LD Rd,Y` (R106). -/
def execLdY (d : Reg) (s : State) : Res State :=
  loadFrom s d (s.pointer .y) 1

/-- `LD Rd,Y+` (R107). -/
def execLdYInc (d : Reg) (s : State) : Res State :=
  loadPostInc s .y d

/-- `LD Rd,-Y` (R108). -/
def execLdYDec (d : Reg) (s : State) : Res State :=
  loadPreDec s .y d

/-- `LDD Rd,Y+q` (R109). -/
def execLddY (d : Reg) (q : BitVec 6) (s : State) : Res State :=
  loadFrom s d (displaced s .y q) 1

/-- `LD Rd,Z` (R110). -/
def execLdZ (d : Reg) (s : State) : Res State :=
  loadFrom s d (s.pointer .z) 1

/-- `LD Rd,Z+` (R111). -/
def execLdZInc (d : Reg) (s : State) : Res State :=
  loadPostInc s .z d

/-- `LD Rd,-Z` (R112). -/
def execLdZDec (d : Reg) (s : State) : Res State :=
  loadPreDec s .z d

/-- `LDD Rd,Z+q` (R113). -/
def execLddZ (d : Reg) (q : BitVec 6) (s : State) : Res State :=
  loadFrom s d (displaced s .z q) 1

/-- `LDS Rd,k` (R114). -/
def execLds (d : Reg) (k : Word) (s : State) : Res State :=
  loadFrom s d k 2

/-- `ST X,Rr` (R115). -/
def execStX (r : Reg) (s : State) : Res State :=
  storeTo s r (s.pointer .x) 1

/-- `ST X+,Rr` (R116). -/
def execStXInc (r : Reg) (s : State) : Res State :=
  storePostInc s .x r

/-- `ST -X,Rr` (R117). -/
def execStXDec (r : Reg) (s : State) : Res State :=
  storePreDec s .x r

/-- `ST Y,Rr` (R118). -/
def execStY (r : Reg) (s : State) : Res State :=
  storeTo s r (s.pointer .y) 1

/-- `ST Y+,Rr` (R119). -/
def execStYInc (r : Reg) (s : State) : Res State :=
  storePostInc s .y r

/-- `ST -Y,Rr` (R120). -/
def execStYDec (r : Reg) (s : State) : Res State :=
  storePreDec s .y r

/-- `STD Y+q,Rr` (R121). -/
def execStdY (q : BitVec 6) (r : Reg) (s : State) : Res State :=
  storeTo s r (displaced s .y q) 1

/-- `ST Z,Rr` (R122). -/
def execStZ (r : Reg) (s : State) : Res State :=
  storeTo s r (s.pointer .z) 1

/-- `ST Z+,Rr` (R123). -/
def execStZInc (r : Reg) (s : State) : Res State :=
  storePostInc s .z r

/-- `ST -Z,Rr` (R124). -/
def execStZDec (r : Reg) (s : State) : Res State :=
  storePreDec s .z r

/-- `STD Z+q,Rr` (R125). -/
def execStdZ (q : BitVec 6) (r : Reg) (s : State) : Res State :=
  storeTo s r (displaced s .z q) 1

/-- `STS k,Rr` (R126). -/
def execSts (k : Word) (r : Reg) (s : State) : Res State :=
  storeTo s r k 2

/-- `LPM` (R127). -/
def execLpmR0 (s : State) : Res State :=
  (progByte s (s.pointer .z)).bind fun v => .next ((s.setReg 0 v).advance 1)

/-- `LPM Rd,Z` (R128). -/
def execLpmZ (d : Reg) (s : State) : Res State :=
  (progByte s (s.pointer .z)).bind fun v => .next ((s.setReg d v).advance 1)

/-- `LPM Rd,Z+` (R129). The overlap of Rd with Z is refused (R134). -/
def execLpmZInc (d : Reg) (s : State) : Res State :=
  let a := s.pointer .z
  if overlaps .z d then .refused .pointerRegisterOverlap
  else (progByte s a).bind fun v =>
    .next (((s.setPointer .z (a + 1#16)).setReg d v).advance 1)

/-- `SPM` (R141). The spec refuses it: which of the five operations runs is left to the device documentation. -/
def execSpm (_s : State) : Res State :=
  .refused .selfProgrammingNotModelled

/-- `IN Rd,A` (R130). -/
def execInp (d : Reg) (a : IoAddr) (s : State) : Res State :=
  let p := ioRead s a
  .next ((p.2.setReg d p.1).advance 1)

/-- `OUT A,Rr` (R131). -/
def execOut (a : IoAddr) (r : Reg) (s : State) : Res State :=
  (ioWrite s a (s.reg r)).bind fun t => .next (t.advance 1)

/-- `PUSH Rr` (R132). -/
def execPush (r : Reg) (s : State) : Res State :=
  (push8 s (s.reg r)).bind fun t => .next (t.advance 1)

/-- `POP Rd` (R133). -/
def execPop (d : Reg) (s : State) : Res State :=
  (pop8 s).bind fun p => .next ((p.2.setReg d p.1).advance 1)

end Sys2Proof.Machine
end

