-- ==== Sys2Proof/Machine/McuControl.lean ====
section
/-! DEFINITION. The MCU control instructions, each with the meaning that its rule of 44_mcu_control.md gives it. -/
namespace Sys2Proof.Machine

/-- `NOP` (R300). -/
def execNop (s : State) : Res State :=
  .next (s.advance 1)

/-- `SLEEP` (R301). It sleeps if SE, bit 7 of MCUCR, is 1; else it is a NOP. -/
def execSleep (s : State) : Res State :=
  let t := s.advance 1
  .next (if bitOf s.mcucr 7 then { t with sleeping := true } else t)

/-- `WDR` (R302). The watchdog timer is a device: the event is all the core does. -/
def execWdr (s : State) : Res State :=
  let t : State := { s with events := s.events ++ [.watchdogRestart] }
  .next (t.advance 1)

/-- `BREAK` (R303). The parameter break_is_nop decides (00_scope.md R8). -/
def execBrk (s : State) : Res State :=
  let t := s.advance 1
  .next (if s.params.breakIsNop then t else { t with stopped := true })

end Sys2Proof.Machine
end

