-- ==== Sys2Proof/Machine/Step.lean ====
section
/-! DEFINITION. One step of the machine (60_exceptions.md R324). -/
namespace Sys2Proof.Machine

/-- The instruction at pc, fetched and executed (30_encoding.md R71). -/
def runInstruction (s : State) : Host.Outcome State Fault Refusal :=
  (fetch s).bind fun i => exec i s

/-- One step: what R324 of 60_exceptions.md does at one instruction boundary. -/
def step (s : State) : Host.Outcome State Fault Refusal := atBoundary runInstruction s

/-- `s` with the instruction whose bits are `w` (numbered as `spec/opcode_table.json` numbers them,
those from `nbits` up being 0) stored at pc, where the next step fetches (entry 11). -/
def State.withFetchWord (s : State) (nbits w : Nat) : State :=
  s.placeWords (tableWord0 nbits w) (tableWord1 nbits w)

end Sys2Proof.Machine
end

