-- ==== Sys2Proof/Safety.lean ====
section
/-! DEFINITION. What the claims speak of: the invariant of the machine, the end of a run
(70_reset_and_hazards.md R366), and the named assumptions on the environment
(60_exceptions.md R323, 70_reset_and_hazards.md R360). -/
namespace Sys2Proof.Machine

/-! ## The invariant -/

/-- Every listed address of a memory is one of the n addresses from lo on. -/
def listedWithin (m : Memory) (lo n : Nat) : Bool :=
  m.all fun c => decide (lo ≤ c.1) && decide (c.1 < lo + n)

/-- SRAM lists only its own 2048 addresses, canonically (20_memory.md R43). -/
def State.sramOk (s : State) : Bool := Memory.wf .sram s.sram && listedWithin s.sram 0x60 2048

/-- Program memory lists only its own 32768 byte addresses, canonically (20_memory.md R52). -/
def State.flashOk (s : State) : Bool := Memory.wf .flash s.flash && listedWithin s.flash 0 32768

/-- An I/O address that the core owns (20_memory.md R48): SREG, SPH, SPL or MCUCR. -/
def coreOwned (a : IoAddr) : Bool := a == 0x3F#6 || a == 0x3E#6 || a == 0x3D#6 || a == 0x35#6

/-- A write that R49 of 20_memory.md refuses: SPMCR with SPMEN, GICR with IVSEL or IVCE. -/
def guardedWrite (a : IoAddr) (v : Byte) : Bool :=
  (a == 0x37#6 && bitOf v 0) || (a == 0x3B#6 && (bitOf v 1 || bitOf v 0))

/-- A cell that DeviceWrite may have left: a device register, and no guarded value in it. -/
def deviceCellOk (c : Host.Cell) : Bool :=
  decide (c.1 < 64) && !coreOwned (BitVec.ofNat 6 c.1) && !guardedWrite (BitVec.ofNat 6 c.1) c.2

/-- The record of device writes is canonical and holds no write that R49 refuses. -/
def State.ioWrittenOk (s : State) : Bool :=
  Memory.wf .ioWritten s.ioWritten && s.ioWritten.all deviceCellOk

/-- A delayed interrupt means that I was just set, by an instruction that did not put the core to
sleep or stop it (60_exceptions.md R325). -/
def State.delayOk (s : State) : Bool :=
  !s.irqDelay || (s.flag flagI && !s.sleeping && !s.stopped)

/-- The invariant that every step keeps. -/
def State.Inv (s : State) : Prop :=
  s.sramOk = true ∧ s.flashOk = true ∧ s.ioWrittenOk = true ∧ s.delayOk = true

/-! ## Assumptions on the environment, by name. No claim makes them silently. -/

/-- The I/O address and the bit of a source's enable bit (60_exceptions.md R322). -/
def enableBit : IntVector → IoAddr × BitNo
  | .int0 => (0x3B#6, 6)
  | .int1 => (0x3B#6, 7)
  | .int2 => (0x3B#6, 5)
  | .timer2Comp => (0x39#6, 7)
  | .timer2Ovf => (0x39#6, 6)
  | .timer1Capt => (0x39#6, 5)
  | .timer1CompA => (0x39#6, 4)
  | .timer1CompB => (0x39#6, 3)
  | .timer1Ovf => (0x39#6, 2)
  | .timer0Comp => (0x39#6, 1)
  | .timer0Ovf => (0x39#6, 0)
  | .spiStc => (0x0D#6, 7)
  | .usartRxc => (0x0A#6, 7)
  | .usartUdre => (0x0A#6, 5)
  | .usartTxc => (0x0A#6, 6)
  | .adcDone => (0x06#6, 3)
  | .eeReady => (0x1C#6, 3)
  | .anaComp => (0x08#6, 3)
  | .twi => (0x36#6, 0)
  | .spmReady => (0x37#6, 7)

/-- `EnableGated` at this boundary (60_exceptions.md R323): a source requests only if the byte the
program wrote last to its enable register, no reset since, has its enable bit set. -/
def State.enableGated (s : State) : Prop :=
  ∀ n ∈ (envInput s).requests, ∃ v,
    Memory.read .ioWritten s.ioWritten (enableBit n).1.toNat = some v ∧ bitOf v (enableBit n).2 = true

/-- `NoReset` (70_reset_and_hazards.md R360): the environment delivers no reset, at this boundary or
at any later one. -/
def State.noReset (s : State) : Prop := ∀ k, (s.inputAt k).reset = false

/-- `NoSpuriousWake` at this boundary (60_exceptions.md R323): the core leaves sleep only by taking an
interrupt (R340) or by a reset. The step of this model has it in every state
(`State.noSpuriousWake_holds`). -/
def State.noSpuriousWake (s : State) : Prop :=
  ∀ t, step s = .next t → s.sleeping = true → t.sleeping = false →
    (envInput s).reset = true ∨ ∃ n, boundaryEvent (envInput s) s = .interrupt n

/-! ## The end of a run (70_reset_and_hazards.md R366) -/

/-- No interrupt is taken at this boundary. -/
def State.takesNoInterrupt (s : State) : Prop := ∀ n, boundaryEvent (envInput s) s ≠ .interrupt n

/-- The states that can end a run with the given END_PC: pc there at a boundary with no interrupt
taken; stopped; or asleep with I = 0 under `NoReset`. -/
def State.final (endPc : ProgAddr) (s : State) : Prop :=
  (s.pc = endPc ∧ s.takesNoInterrupt) ∨ s.stopped = true ∨
    (s.sleeping = true ∧ s.flag flagI = false ∧ s.noReset)

/-- The run from s ends in t after n steps: t is the first final state on the way. A refused step is
no end, so a run that meets one ends nowhere. -/
def endsAfter (endPc : ProgAddr) : Nat → State → State → Prop
  | 0, s, t => t = s ∧ s.final endPc
  | n + 1, s, t => ¬ s.final endPc ∧ ∃ u, step s = .next u ∧ endsAfter endPc n u t

/-- The run from s ends in t. -/
def endsIn (endPc : ProgAddr) (s t : State) : Prop := ∃ n, endsAfter endPc n s t

/-- The run from s reaches t in n steps, ended on the way or not. -/
def reaches : Nat → State → State → Prop
  | 0, s, t => t = s
  | n + 1, s, t => ∃ u, step s = .next u ∧ reaches n u t

end Sys2Proof.Machine
end

