-- ==== Sys2Proof/Claims.lean ====
section
/-! DEFINITION. The vocabulary of the statements: the spec's tables and formulas written out a
second time, over the fields of a state and without the operations that the meanings use. -/
namespace Sys2Proof.Claims
open Sys2Proof.Machine

/-! ## Flags (10_state.md R16, R18) -/

/-- SREG from its eight flags (R16). -/
def sregOf (i t h s v n z c : Bool) : Byte := BitVec.ofBoolListBE [i, t, h, s, v, n, z, c]

/-- H, V, N, Z, C and S = N xor V new, I and T kept. -/
def newHSVNZC (sreg : Byte) (h v n z c : Bool) : Byte :=
  sregOf (sreg.getLsbD 7) (sreg.getLsbD 6) h (n ^^ v) v n z c
/-- V, N, Z, C and S = N xor V new, I, T and H kept. -/
def newSVNZC (sreg : Byte) (v n z c : Bool) : Byte :=
  sregOf (sreg.getLsbD 7) (sreg.getLsbD 6) (sreg.getLsbD 5) (n ^^ v) v n z c
/-- V, N, Z and S = N xor V new, I, T, H and C kept. -/
def newSVNZ (sreg : Byte) (v n z : Bool) : Byte := newSVNZC sreg v n z (sreg.getLsbD 0)
/-- Z and C new, the other flags kept. -/
def newZC (sreg : Byte) (z c : Bool) : Byte :=
  sregOf (sreg.getLsbD 7) (sreg.getLsbD 6) (sreg.getLsbD 5) (sreg.getLsbD 4) (sreg.getLsbD 3)
    (sreg.getLsbD 2) z c

/-- R18, row "addition". -/
def additionSreg (sreg d r res : Byte) : Byte :=
  newHSVNZC sreg
    (d.getLsbD 3 && r.getLsbD 3 || r.getLsbD 3 && !res.getLsbD 3 || !res.getLsbD 3 && d.getLsbD 3)
    (d.getLsbD 7 && r.getLsbD 7 && !res.getLsbD 7 || !d.getLsbD 7 && !r.getLsbD 7 && res.getLsbD 7)
    (res.getLsbD 7) (res == 0#8)
    (d.getLsbD 7 && r.getLsbD 7 || r.getLsbD 7 && !res.getLsbD 7 || !res.getLsbD 7 && d.getLsbD 7)

/-- R18, rows "subtraction", the Z flag given apart because two rows differ in it only. -/
def subtractionSreg (sreg d r res : Byte) (z : Bool) : Byte :=
  newHSVNZC sreg
    (!d.getLsbD 3 && r.getLsbD 3 || r.getLsbD 3 && res.getLsbD 3 || res.getLsbD 3 && !d.getLsbD 3)
    (d.getLsbD 7 && !r.getLsbD 7 && !res.getLsbD 7 || !d.getLsbD 7 && r.getLsbD 7 && res.getLsbD 7)
    (res.getLsbD 7) z
    (!d.getLsbD 7 && r.getLsbD 7 || r.getLsbD 7 && res.getLsbD 7 || res.getLsbD 7 && !d.getLsbD 7)

/-- R18, row "AND, ANDI, OR, ...". -/
def logicSreg (sreg res : Byte) : Byte := newSVNZ sreg false (res.getLsbD 7) (res == 0#8)

/-- R18, rows "LSR" and "ROR, ASR": a is the operand. -/
def rightShiftSreg (sreg a res : Byte) : Byte :=
  newSVNZC sreg (res.getLsbD 7 ^^ a.getLsbD 0) (res.getLsbD 7) (res == 0#8) (a.getLsbD 0)

/-- R18, row "LSL, ROL": a is the operand. -/
def leftShiftSreg (sreg a res : Byte) : Byte :=
  newHSVNZC sreg (a.getLsbD 3) (res.getLsbD 7 ^^ a.getLsbD 7) (res.getLsbD 7) (res == 0#8)
    (a.getLsbD 7)

/-- The carry flag as a byte to add. -/
def carryByte (s : State) : Byte := if s.sreg.getLsbD 0 then 1#8 else 0#8

/-! ## States after an instruction -/

/-- The state in which a boundary acts: its input is consumed (the model's form of the environment,
entry 6). -/
def afterInput (s : State) : State := { s with env := s.env.tail, boundaries := s.boundaries + 1 }

/-- The state after an instruction of n words that writes Rd. -/
def afterReg (s : State) (d : Reg) (v : Byte) (n : Nat) : State :=
  { s with regs := s.regs.set d v, pc := s.pc + BitVec.ofNat 14 n }

/-- The state after a one-word instruction that writes Rd and SREG. -/
def afterRegSreg (s : State) (d : Reg) (v sreg : Byte) : State :=
  { s with regs := s.regs.set d v, sreg := sreg, pc := s.pc + 1#14 }

/-- The state after a one-word instruction that writes SREG. -/
def afterSreg (s : State) (sreg : Byte) : State := { s with sreg := sreg, pc := s.pc + 1#14 }

/-- The state after a one-word instruction that writes the pair Rd+1:Rd and SREG. -/
def afterPairSreg (s : State) (d : Reg) (v : BitVec 16) (sreg : Byte) : State :=
  { s with
    regs := (s.regs.set d (v.setWidth 8)).set (d + 1 : Reg) ((v >>> 8).setWidth 8)
    sreg := sreg
    pc := s.pc + 1#14 }

/-- The pair Rd+1:Rd (10_state.md R12). -/
def pairAt (s : State) (d : Reg) : BitVec 16 := s.regs[(d + 1 : Reg)] ++ s.regs[d]

/-! ## The data space (20_memory.md R43 to R49, R56) -/

/-- A data address of a register that the devices own (20_memory.md R50). -/
def isDevice (a : DataAddr) : Bool :=
  decide (0x20 ≤ a.toNat) && decide (a.toNat < 0x60) &&
    a != 0x5F#16 && a != 0x5E#16 && a != 0x5D#16 && a != 0x55#16

/-- What a read of one byte of data space returns; none where R44 of 20_memory.md refuses it. -/
def byteAt (s : State) (a : DataAddr) : Option Byte :=
  if h : a.toNat < 0x20 then some s.regs[a.toNat]
  else if a = 0x5F#16 then some s.sreg
  else if a = 0x5E#16 then some ((s.sp >>> 8).setWidth 8)
  else if a = 0x5D#16 then some (s.sp.setWidth 8)
  else if a = 0x55#16 then some s.mcucr
  else if a.toNat < 0x60 then some (Config.deviceDraw s.draws (BitVec.ofNat 6 (a.toNat - 0x20)))
  else if a.toNat ≤ 0x85F then Memory.read .sram s.sram a.toNat
  else none

/-- The state after a read of one byte of data space: a device read is counted. -/
def afterRead (s : State) (a : DataAddr) : State :=
  if isDevice a then { s with draws := s.draws + 1 } else s

/-- The reason a read of data space stops (20_memory.md R44, R47, R69). -/
def readFault (a : DataAddr) : Fault :=
  if a.toNat ≤ 0x85F then .readOfUnwrittenState a else .unimplementedDataAddress a

/-- The state after a write of one byte of data space; none where R45 or R49 of 20_memory.md
refuses it. -/
def stored (s : State) (a : DataAddr) (v : Byte) : Option State :=
  if h : a.toNat < 0x20 then some { s with regs := s.regs.set a.toNat v }
  else if a = 0x5F#16 then
    some { s with sreg := v, irqDelay := s.irqDelay || (!s.sreg.getLsbD 7 && v.getLsbD 7) }
  else if a = 0x5E#16 then some { s with sp := v.setWidth 4 ++ s.sp.setWidth 8 }
  else if a = 0x5D#16 then some { s with sp := (s.sp >>> 8).setWidth 4 ++ v }
  else if a = 0x55#16 then some { s with mcucr := v }
  else if a = 0x57#16 ∧ v.getLsbD 0 = true then none
  else if a = 0x5B#16 ∧ (v.getLsbD 1 = true ∨ v.getLsbD 0 = true) then none
  else if a.toNat < 0x60 then
    some { s with
      events := s.events ++ [.deviceWrite (BitVec.ofNat 6 (a.toNat - 0x20)) v]
      ioWritten := Memory.write .ioWritten s.ioWritten (a.toNat - 0x20) v }
  else if a.toNat ≤ 0x85F then some { s with sram := Memory.write .sram s.sram a.toNat v }
  else none

/-- The outcome of a write of data space that does not go on (20_memory.md R45, R49). -/
def writeStop (a : DataAddr) : Res State :=
  if a = 0x57#16 then .refused .selfProgrammingNotModelled
  else if a = 0x5B#16 then .refused .vectorMoveNotModelled
  else .fault (.unimplementedDataAddress a)

/-- The state after a push of one byte (20_memory.md R56); none where it is refused. -/
def pushed (s : State) (v : Byte) : Option State :=
  if s.sp = 0x5D#12 ∨ s.sp = 0x5E#12 then none
  else (stored s (s.sp.setWidth 16) v).map fun t => { t with sp := t.sp - 1#12 }

/-- The outcome of a push of one byte that does not go on (20_memory.md R56). -/
def pushStop (s : State) : Res State :=
  if s.sp = 0x5D#12 ∨ s.sp = 0x5E#12 then .refused .stackPointerSelfAccess
  else writeStop (s.sp.setWidth 16)

/-- The state after a push of a return address (20_memory.md R58): low byte, then high byte. -/
def pushedPC (s : State) (a : ProgAddr) : Option State :=
  (pushed s (a.setWidth 8)).bind fun t => pushed t ((a >>> 8).setWidth 8)

/-- The outcome of a push of a return address that does not go on: at its low byte, or at its high
byte (20_memory.md R56, R58). -/
def pushPCStop (s : State) (a : ProgAddr) : Res State :=
  match pushed s (a.setWidth 8) with
  | none => pushStop s
  | some t => pushStop t

/-! ## Pointers (10_state.md R12) -/

/-- The register file with the pointer whose low register is d written. -/
def pointerSet (r : Vector Byte 32) (d : Reg) (v : DataAddr) : Vector Byte 32 :=
  (r.set d (v.setWidth 8)).set (d + 1 : Reg) ((v >>> 8).setWidth 8)

/-- The data address a is not one of the two registers of the pointer whose low register is d, and
the data register r is not either (40_data_transfer.md R134). -/
def apart (d r : Reg) (a : DataAddr) : Prop :=
  r ≠ d ∧ r ≠ d + 1 ∧ a.toNat ≠ d.val ∧ a.toNat ≠ d.val + 1

/-! ## What each instruction may write -/

/-- The general registers that an instruction writes by name (10_state.md R11, and the rule of
each instruction): its destination, and a pointer that it increments or decrements. -/
def writtenRegs : Instr → List Reg
  | .mov d _ | .ldi d _ | .ldX d | .ldY d | .lddY d _ | .ldZ d | .lddZ d _ | .lds d _ | .lpmZ d
  | .inp d _ | .pop d | .lsl d | .lsr d | .rol d | .ror d | .asr d | .swap d | .bld d _ | .add d _
  | .adc d _ | .sub d _ | .subi d _ | .sbc d _ | .sbci d _ | .and d _ | .andi d _ | .or d _
  | .ori d _ | .eor d _ | .com d | .neg d | .sbr d _ | .cbr d _ | .inc d | .dec d | .clr d
  | .ser d => [d]
  | .movw d _ | .adiw d _ | .sbiw d _ => [d, d + 1]
  | .ldXInc d | .ldXDec d => [d, 26, 27]
  | .ldYInc d | .ldYDec d => [d, 28, 29]
  | .ldZInc d | .ldZDec d | .lpmZInc d => [d, 30, 31]
  | .stXInc _ | .stXDec _ => [26, 27]
  | .stYInc _ | .stYDec _ => [28, 29]
  | .stZInc _ | .stZDec _ => [30, 31]
  | .lpmR0 => [0]
  | .mul _ _ | .muls _ _ | .mulsu _ _ | .fmul _ _ | .fmuls _ _ | .fmulsu _ _ => [0, 1]
  | .stX _ | .stY _ | .stdY _ _ | .stZ _ | .stdZ _ _ | .sts _ _ | .spm | .out _ _ | .push _
  | .rjmp _ | .ijmp | .jmp _ | .rcall _ | .icall | .call _ | .ret | .reti | .cpse _ _ | .cp _ _
  | .cpc _ _ | .cpi _ _ | .sbrc _ _ | .sbrs _ _ | .sbic _ _ | .sbis _ _ | .brbs _ _ | .brbc _ _
  | .breq _ | .brne _ | .brcs _ | .brcc _ | .brsh _ | .brlo _ | .brmi _ | .brpl _ | .brge _
  | .brlt _ | .brhs _ | .brhc _ | .brts _ | .brtc _ | .brvs _ | .brvc _ | .brie _ | .brid _
  | .sbi _ _ | .cbi _ _ | .bset _ | .bclr _ | .bst _ _ | .sec | .clc | .sen | .cln | .sez | .clz
  | .sei | .cli | .ses | .cls | .sev | .clv | .sett | .clt | .seh | .clh | .tst _ | .nop | .sleep
  | .wdr | .brk => []

/-- The flags that an instruction writes: the table of R19 of 10_state.md. -/
def writtenFlags : Instr → List BitNo
  | .add _ _ | .adc _ _ | .sub _ _ | .subi _ _ | .sbc _ _ | .sbci _ _ | .cp _ _ | .cpc _ _
  | .cpi _ _ | .neg _ | .lsl _ | .rol _ => [5, 4, 3, 2, 1, 0]
  | .adiw _ _ | .sbiw _ _ | .asr _ | .ror _ | .lsr _ | .com _ => [4, 3, 2, 1, 0]
  | .and _ _ | .andi _ _ | .or _ _ | .ori _ _ | .eor _ _ | .cbr _ _ | .sbr _ _ | .tst _ | .clr _
  | .inc _ | .dec _ => [4, 3, 2, 1]
  | .mul _ _ | .muls _ _ | .mulsu _ _ | .fmul _ _ | .fmuls _ _ | .fmulsu _ _ => [1, 0]
  | .bst _ _ | .sett | .clt => [6]
  | .bset s | .bclr s => [s]
  | .sec | .clc => [0]
  | .sez | .clz => [1]
  | .sen | .cln => [2]
  | .sev | .clv => [3]
  | .ses | .cls => [4]
  | .seh | .clh => [5]
  | .sei | .cli | .reti => [7]
  | .mov _ _ | .movw _ _ | .ldi _ _ | .ldX _ | .ldXInc _ | .ldXDec _ | .ldY _ | .ldYInc _
  | .ldYDec _ | .lddY _ _ | .ldZ _ | .ldZInc _ | .ldZDec _ | .lddZ _ _ | .lds _ _ | .stX _
  | .stXInc _ | .stXDec _ | .stY _ | .stYInc _ | .stYDec _ | .stdY _ _ | .stZ _ | .stZInc _
  | .stZDec _ | .stdZ _ _ | .sts _ _ | .lpmR0 | .lpmZ _ | .lpmZInc _ | .spm | .inp _ _ | .out _ _
  | .push _ | .pop _ | .rjmp _ | .ijmp | .jmp _ | .rcall _ | .icall | .call _ | .ret | .cpse _ _
  | .sbrc _ _ | .sbrs _ _ | .sbic _ _ | .sbis _ _ | .brbs _ _ | .brbc _ _ | .breq _ | .brne _
  | .brcs _ | .brcc _ | .brsh _ | .brlo _ | .brmi _ | .brpl _ | .brge _ | .brlt _ | .brhs _
  | .brhc _ | .brts _ | .brtc _ | .brvs _ | .brvc _ | .brie _ | .brid _ | .sbi _ _ | .cbi _ _
  | .swap _ | .bld _ _ | .ser _ | .nop | .sleep | .wdr | .brk => []

/-- The data addresses that an instruction executed in s stores a byte to, computed as its meaning
computes them; empty for an instruction that stores nothing. I/O register A is data address
A + $20. -/
def storedTo (s : State) : Instr → List DataAddr
  | .stX _ | .stXInc _ => [s.pointer .x]
  | .stY _ | .stYInc _ => [s.pointer .y]
  | .stZ _ | .stZInc _ => [s.pointer .z]
  | .stXDec _ => [s.pointer .x - 1#16]
  | .stYDec _ => [s.pointer .y - 1#16]
  | .stZDec _ => [s.pointer .z - 1#16]
  | .stdY q _ => [displaced s .y q]
  | .stdZ q _ => [displaced s .z q]
  | .sts k _ => [k]
  | .out a _ => [ioDataAddr a]
  | .sbi a _ | .cbi a _ => [ioDataAddr (a.setWidth 6)]
  | .push _ => [s.spAddr]
  | .rcall _ | .icall | .call _ => [s.spAddr, (s.sp - 1#12).setWidth 16]
  | .mov _ _ | .movw _ _ | .ldi _ _ | .ldX _ | .ldXInc _ | .ldXDec _ | .ldY _ | .ldYInc _
  | .ldYDec _ | .lddY _ _ | .ldZ _ | .ldZInc _ | .ldZDec _ | .lddZ _ _ | .lds _ _ | .lpmR0
  | .lpmZ _ | .lpmZInc _ | .spm | .inp _ _ | .pop _ | .rjmp _ | .ijmp | .jmp _ | .ret | .reti
  | .cpse _ _ | .cp _ _ | .cpc _ _ | .cpi _ _ | .sbrc _ _ | .sbrs _ _ | .sbic _ _ | .sbis _ _
  | .brbs _ _ | .brbc _ _ | .breq _ | .brne _ | .brcs _ | .brcc _ | .brsh _ | .brlo _ | .brmi _
  | .brpl _ | .brge _ | .brlt _ | .brhs _ | .brhc _ | .brts _ | .brtc _ | .brvs _ | .brvc _
  | .brie _ | .brid _ | .lsl _ | .lsr _ | .rol _ | .ror _ | .asr _ | .swap _ | .bset _ | .bclr _
  | .bst _ _ | .bld _ _ | .sec | .clc | .sen | .cln | .sez | .clz | .sei | .cli | .ses | .cls
  | .sev | .clv | .sett | .clt | .seh | .clh | .add _ _ | .adc _ _ | .adiw _ _ | .sub _ _
  | .subi _ _ | .sbc _ _ | .sbci _ _ | .sbiw _ _ | .and _ _ | .andi _ _ | .or _ _ | .ori _ _
  | .eor _ _ | .com _ | .neg _ | .sbr _ _ | .cbr _ _ | .inc _ | .dec _ | .tst _ | .clr _ | .ser _
  | .mul _ _ | .muls _ _ | .mulsu _ _ | .fmul _ _ | .fmuls _ _ | .fmulsu _ _ | .nop | .sleep
  | .wdr | .brk => []

/-- The instructions that move SP (10_state.md R21). -/
def movesSP : Instr → Bool
  | .push _ | .pop _ | .rcall _ | .icall | .call _ | .ret | .reti => true
  | _ => false

/-- The instructions that read a data address or an I/O register and so may read a device. -/
def readsData : Instr → Bool
  | .ldX _ | .ldXInc _ | .ldXDec _ | .ldY _ | .ldYInc _ | .ldYDec _ | .lddY _ _ | .ldZ _
  | .ldZInc _ | .ldZDec _ | .lddZ _ _ | .lds _ _ | .inp _ _ | .pop _ | .ret | .reti | .sbi _ _
  | .cbi _ _ | .sbic _ _ | .sbis _ _ => true
  | _ => false

/-- The classes of R84 of 30_encoding.md: the words of the reserved encodings. -/
def reservedWord (w : Word) : Bool :=
  (w &&& 0xFF00#16 == 0x0000#16 && w != 0x0000#16) ||
  (w &&& 0xFE00#16 == 0x9000#16 &&
    [0x3#16, 0x6#16, 0x7#16, 0x8#16, 0xB#16].contains (w &&& 0x000F#16)) ||
  (w &&& 0xFE00#16 == 0x9200#16 &&
    [0x3#16, 0x4#16, 0x5#16, 0x6#16, 0x7#16, 0x8#16, 0xB#16].contains (w &&& 0x000F#16)) ||
  w &&& 0xFE0F#16 == 0x9404#16 ||
  w &&& 0xFE0F#16 == 0x940B#16 ||
  (w &&& 0xFE0F#16 == 0x9409#16 && w != 0x9409#16 && w != 0x9509#16) ||
  (w &&& 0xFF0F#16 == 0x9508#16 &&
    [0x20#16, 0x30#16, 0x40#16, 0x50#16, 0x60#16, 0x70#16, 0xB0#16, 0xD0#16, 0xF0#16].contains
      (w &&& 0x00F0#16)) ||
  w &&& 0xF808#16 == 0xF808#16

end Sys2Proof.Claims
end

