-- ==== Sys2Proof/Certificates/Slice0/Obligations.lean ====
section
/-! DEFINITION. The statements for the provers, from the numbered rules of the spec. A state in an
equation `exec i s = .next …` is the whole next state: what its record update does not name, every
byte of memory included, is as before. -/
open Sys2Proof Sys2Proof.Machine Sys2Proof.Claims

/-! ## Encoding (30_encoding.md) -/

/-- The bytes of a well-formed instruction, words low byte first, decode to it under the decoder's
name for its word (the model's choice, entry 12), and decoding leaves exactly the bytes after it. -/
def Obligations.DecodingInvertsEncoding : Prop :=
  ∀ (i : Instr) (rest : List Byte), i.wellFormed = true →
    decodeBytes ((encode i).flatMap wordBytes ++ rest) = .ok (decoderSpelling i, rest)

/-- What the decoder reads is well formed, bears the decoder's name (entry 12), and encodes to the words read,
the second word counting for a two-word instruction only. -/
def Obligations.EncodingInvertsDecoding : Prop :=
  ∀ (w0 w1 : Word) (i : Instr), decodeWords w0 w1 = .ok i →
    i.wellFormed = true ∧ decoderSpelling i = i ∧
      encode i = if instrWords w0 = 2 then [w0, w1] else [w0]

/-- R79: no word matches two rows of the opcode list. -/
def Obligations.NoWordMatchesTwoRows : Prop :=
  ∀ (w : Word) (j k : Fin 86) (p q : Row), opcodeRows[j.val]? = some p → opcodeRows[k.val]? = some q →
    p.matches w = true → q.matches w = true → j = k

/-- R84: the decoder rejects exactly the words of the classes of reserved encodings, by name. -/
def Obligations.ReservedWordsAreTheClassesOfR84 : Prop :=
  ∀ w0 w1 : Word, (reservedWord w0 = true → decodeWords w0 w1 = .error (.reserved w0)) ∧
    (reservedWord w0 = false → ∃ i, decodeWords w0 w1 = .ok i)

/-- R74: the length function, what it says of every instruction's first word, that exactly LDS,
STS, JMP and CALL have two words, and that every reserved word counts as one. -/
def Obligations.InstructionLengthsAreR74 : Prop :=
  (∀ w : Word, instrWords w =
    if w &&& 0xFE0F#16 = 0x9000#16 then 2 else if w &&& 0xFE0F#16 = 0x9200#16 then 2
    else if w &&& 0xFE0E#16 = 0x940C#16 then 2 else if w &&& 0xFE0E#16 = 0x940E#16 then 2 else 1) ∧
  (∀ (i : Instr) (w : Word) (rest : List Word), i.wellFormed = true → encode i = w :: rest →
    instrWords w = (encode i).length ∧
    ((encode i).length = 2 ↔
      (∃ d k, i = .lds d k) ∨ (∃ k r, i = .sts k r) ∨ (∃ k, i = .jmp k) ∨ ∃ k, i = .call k)) ∧
  (∀ w : Word, rowOf w = none → instrWords w = 1)

/-- Words written out from the patterns of R77 decode to the instructions they stand for; of the
names that share a word the decoder's is the model's choice (entry 12). -/
def Obligations.SampleWordsDecode : Prop :=
  (∀ w1, decodeWords 0b0000110000010010#16 w1 = .ok (.add 1 2)) ∧
  (∀ w1, decodeWords 0b0000000110001000#16 w1 = .ok (.movw 16 16)) ∧
  (∀ w1, decodeWords 0b1110111111101111#16 w1 = .ok (.ser 30)) ∧
  (∀ w1, decodeWords 0b1001011011111111#16 w1 = .ok (.adiw 30 63#6)) ∧
  (∀ w1, decodeWords 0b1010110000001111#16 w1 = .ok (.lddY 0 63#6)) ∧
  (∀ w1, decodeWords 0b1011011100001111#16 w1 = .ok (.inp 16 0x3F#6)) ∧
  (∀ w1, decodeWords 0b1001101011100010#16 w1 = .ok (.sbi 0x1C#5 2)) ∧
  (∀ w1, decodeWords 0b1111011111101001#16 w1 = .ok (.brne 0b1111101#7)) ∧
  (∀ w1, decodeWords 0b1111110000000111#16 w1 = .ok (.sbrc 0 7)) ∧
  (∀ w1, decodeWords 0b0000001101101100#16 w1 = .ok (.fmul 22 20)) ∧
  decodeWords 0b1001001000100000#16 0x0100#16 = .ok (.sts 0x0100#16 2) ∧
  decodeWords 0b1001010000001101#16 0x0000#16 = .ok (.jmp 0x10000#22) ∧
  (∀ w1, decodeWords 0b1001010101101000#16 w1 = .error (.reserved 0x9568#16))

/-- R79, R80: an instruction and the base instruction whose word it shares have one meaning, with
every operand and in every state. -/
def Obligations.SharedWordsHaveOneMeaning : Prop :=
  ∀ (i : Instr) (s : State), exec (canonical i) s = exec i s

/-! ## Memory (20_memory.md) -/

/-- R44: a read of data space, with the refusals of R47 and R69. -/
def Obligations.MemReadIsR44 : Prop :=
  ∀ (s : State) (a : DataAddr),
    (∀ h : a.toNat ≤ 0x1F, memRead s a = .next (s.regs[a.toNat], s)) ∧
    (0x20 ≤ a.toNat → a.toNat ≤ 0x5F → memRead s a = .next (ioRead s ((a - 0x20#16).setWidth 6))) ∧
    (0x60 ≤ a.toNat → a.toNat ≤ 0x85F → ∀ v, Memory.read .sram s.sram a.toNat = some v →
      memRead s a = .next (v, s)) ∧
    (0x60 ≤ a.toNat → a.toNat ≤ 0x85F → Memory.read .sram s.sram a.toNat = none →
      memRead s a = .fault (.readOfUnwrittenState a)) ∧
    (0x860 ≤ a.toNat → memRead s a = .fault (.unimplementedDataAddress a))

/-- R45: a write of data space; in SRAM exactly the byte at the address changes. -/
def Obligations.MemWriteIsR45 : Prop :=
  ∀ (s : State) (a : DataAddr) (v : Byte),
    (∀ h : a.toNat ≤ 0x1F, memWrite s a v = .next { s with regs := s.regs.set a.toNat v }) ∧
    (0x20 ≤ a.toNat → a.toNat ≤ 0x5F → memWrite s a v = ioWrite s ((a - 0x20#16).setWidth 6) v) ∧
    (0x60 ≤ a.toNat → a.toNat ≤ 0x85F → ∃ m, memWrite s a v = .next { s with sram := m } ∧
      (Memory.wf .sram s.sram = true →
        ∀ b, Memory.read .sram m b = if b = a.toNat then some v else Memory.read .sram s.sram b)) ∧
    (0x860 ≤ a.toNat → memWrite s a v = .fault (.unimplementedDataAddress a))

/-- R48 and R49: the I/O registers that the core owns, the two refused writes, the devices. The
records of device writes, `events` and `ioWritten`, are the model's own (entries 8, 9), the count of
device reads too (entry 7), and that a write of MCUCR makes no event is the model's reading
(entry 14). -/
def Obligations.IoSpaceIsR48AndR49 : Prop :=
  ∀ (s : State) (v : Byte),
    ioRead s 0x3F#6 = (s.sreg, s) ∧
    ioRead s 0x3E#6 = ((s.sp >>> 8).setWidth 8, s) ∧
    ioRead s 0x3D#6 = (s.sp.setWidth 8, s) ∧
    ioRead s 0x35#6 = (s.mcucr, s) ∧
    ioWrite s 0x3F#6 v = .next { s with
      sreg := v, irqDelay := s.irqDelay || (!s.sreg.getLsbD 7 && v.getLsbD 7) } ∧
    ioWrite s 0x3E#6 v = .next { s with sp := v.setWidth 4 ++ s.sp.setWidth 8 } ∧
    ioWrite s 0x3D#6 v = .next { s with sp := (s.sp >>> 8).setWidth 4 ++ v } ∧
    ioWrite s 0x35#6 v = .next { s with mcucr := v } ∧
    (v.getLsbD 0 = true → ioWrite s 0x37#6 v = .refused .selfProgrammingNotModelled) ∧
    (v.setWidth 2 ≠ 0#2 → ioWrite s 0x3B#6 v = .refused .vectorMoveNotModelled) ∧
    (∀ a : IoAddr, a ≠ 0x3F#6 → a ≠ 0x3E#6 → a ≠ 0x3D#6 → a ≠ 0x35#6 →
      ioRead s a = (Config.deviceDraw s.draws a, { s with draws := s.draws + 1 }) ∧
      ((a = 0x37#6 → v.getLsbD 0 = false) → (a = 0x3B#6 → v.setWidth 2 = 0#2) →
        ioWrite s a v = .next { s with
          events := s.events ++ [.deviceWrite a v]
          ioWritten := Memory.write .ioWritten s.ioWritten a.toNat v }))

/-- R58 and R59: a return address pushed into SRAM lies low byte at SP, high byte at SP - 1, and a
pop gives it back with SP as it was. -/
def Obligations.ReturnAddressPushAndPop : Prop :=
  ∀ (s : State) (a : ProgAddr), Memory.wf .sram s.sram = true → 0x61 ≤ s.sp.toNat →
    s.sp.toNat ≤ 0x85F → ∃ m : Memory,
      pushPC s a = .next { s with sram := m, sp := s.sp - 2#12 } ∧
      popPC { s with sram := m, sp := s.sp - 2#12 } = .next (a, { s with sram := m }) ∧
      ∀ b, Memory.read .sram m b =
        if b = s.sp.toNat then some (a.setWidth 8)
        else if b + 1 = s.sp.toNat then some ((a >>> 8).setWidth 8)
        else Memory.read .sram s.sram b

/-- R56, R58: a push onto SPL or SPH is refused; a push of a return address is refused if either
byte would be; above RAMEND, and from SP = $000, it faults. -/
def Obligations.StackWritesThatStop : Prop :=
  ∀ (s : State) (v : Byte) (a : ProgAddr),
    (s.sp = 0x5D#12 ∨ s.sp = 0x5E#12 → push8 s v = .refused .stackPointerSelfAccess ∧
      pushPC s a = .refused .stackPointerSelfAccess) ∧
    (s.sp = 0x5F#12 → pushPC s a = .refused .stackPointerSelfAccess) ∧
    (0x860 ≤ s.sp.toNat →
      push8 s v = .fault (.unimplementedDataAddress (s.sp.setWidth 16)) ∧
      pushPC s a = .fault (.unimplementedDataAddress (s.sp.setWidth 16))) ∧
    (s.sp = 0x000#12 → pushPC s a = .fault (.unimplementedDataAddress 0x0FFF#16))

/-! ## The step (60_exceptions.md R324, 30_encoding.md R71) -/

/-- No reset, not stopped, no interrupt to take, awake: the step is the meaning of the instruction
that the words at pc and pc + 1 decode to, in the state with this boundary's input consumed (the
model's form of the environment, entry 6) and irq_delay cleared. -/
def Obligations.StepRunsDecodedInstruction : Prop :=
  ∀ (s : State) (i : Instr), (envInput s).reset = false → s.stopped = false →
    (s.sreg.getLsbD 7 = false ∨ s.irqDelay = true ∨ (envInput s).requests = []) →
    s.sleeping = false →
    decodeWords (s.progWord s.pc) (s.progWord (s.pc + 1#14)) = .ok i →
    step s = exec i { afterInput s with irqDelay := false }

/-- The same for the words that encode a well-formed instruction, under any of its names. -/
def Obligations.StepRunsEncodedInstruction : Prop :=
  ∀ (s : State) (i : Instr), i.wellFormed = true →
    (envInput s).reset = false → s.stopped = false →
    (s.sreg.getLsbD 7 = false ∨ s.irqDelay = true ∨ (envInput s).requests = []) →
    s.sleeping = false →
    (encode i = [s.progWord s.pc] ∨ encode i = [s.progWord s.pc, s.progWord (s.pc + 1#14)]) →
    step s = exec i { afterInput s with irqDelay := false }

/-- R84, R321: a reserved word at pc refuses the step, by name. -/
def Obligations.StepRefusesReservedWords : Prop :=
  ∀ s : State, (envInput s).reset = false → s.stopped = false →
    (s.sreg.getLsbD 7 = false ∨ s.irqDelay = true ∨ (envInput s).requests = []) →
    s.sleeping = false → reservedWord (s.progWord s.pc) = true →
    step s = .refused (.illegalInstruction (s.progWord s.pc))

/-- R324, R326, R327, R330, R340: with I = 1 and no delay the requesting source with the lowest
vector number is taken, awake or asleep: the return address goes to the stack wherever it lies, I is
cleared, the core is awake, pc is VECTOR_BASE + 2 (n - 1), the environment is told (in the model's
record of events, entry 8); where the stack write does not go on, the step stops. -/
def Obligations.StepTakesMostUrgentInterrupt : Prop :=
  ∀ (s u : State) (n : IntVector), (envInput s).reset = false → s.stopped = false →
    s.sreg.getLsbD 7 = true → s.irqDelay = false →
    n ∈ (envInput s).requests →
    (∀ m ∈ (envInput s).requests, vectorNumber n ≤ vectorNumber m) →
    u = afterInput s →
    (∀ t, pushedPC u s.pc = some t →
      step s = .next { t with
        sreg := t.sreg &&& 0x7F#8, sleeping := false
        pc := s.params.vectorBase + BitVec.ofNat 14 (2 * (vectorNumber n - 1))
        events := t.events ++ [.interruptTaken n] }) ∧
    (pushedPC u s.pc = none → step s = pushPCStop u s.pc)

/-- R327 with the stack in SRAM: what the entry into an interrupt leaves, whole: the low byte of the
return address at SP, the high byte at SP - 1, no other byte of memory changed; the event goes to the
model's record (entry 8). -/
def Obligations.InterruptEntryWithStackInSram : Prop :=
  ∀ (s : State) (n : IntVector), Memory.wf .sram s.sram = true → 0x61 ≤ s.sp.toNat →
    s.sp.toNat ≤ 0x85F → ∃ m : Memory,
      interruptEntry s n = .next { s with
        sram := m, sp := s.sp - 2#12, sreg := s.sreg &&& 0x7F#8, sleeping := false
        pc := s.params.vectorBase + BitVec.ofNat 14 (2 * (vectorNumber n - 1))
        events := s.events ++ [.interruptTaken n] } ∧
      ∀ b, Memory.read .sram m b =
        if b = s.sp.toNat then some (s.pc.setWidth 8)
        else if b + 1 = s.sp.toNat then some ((s.pc >>> 8).setWidth 8)
        else Memory.read .sram s.sram b

/-- R360, R362 to R365: a reset, whatever else stands at the boundary. The registers' values after
it are the model's choice (entry 1) and are not stated; program memory holds the loaded image
(10_state.md R30); the schedule is the model's own (entry 6), that it and the parameters (entry 10)
stay is entry 15. -/
def Obligations.StepDeliversReset : Prop :=
  ∀ s : State, (envInput s).reset = true → ∃ t, step s = .next t ∧
    t.pc = s.params.resetPc ∧ t.sreg = 0#8 ∧ t.sp = 0#12 ∧ t.mcucr = 0#8 ∧
    t.irqDelay = false ∧ t.sleeping = false ∧ t.stopped = false ∧
    (∀ b, Memory.read .sram t.sram b = none) ∧
    (∀ b, t.flashByte b = s.flashByte b) ∧ t.params = s.params ∧
    t.env = s.env.tail ∧ t.envRest = s.envRest ∧ t.boundaries = s.boundaries + 1

/-- R303, R324: a stopped core takes no interrupt and executes nothing. R301, R324, R340: an
asleep core executes nothing, and while I = 0 or no source requests it stays asleep. That such a
step is a next state that only consumes the boundary's input is the model's form (entries 6, 19). -/
def Obligations.StoppedAndSleepingCoresIdle : Prop :=
  ∀ s : State, (envInput s).reset = false →
    (s.stopped = true ∨ s.sleeping = true ∧
      (s.sreg.getLsbD 7 = false ∨ s.irqDelay = true ∨ (envInput s).requests = [])) →
    step s = .next (afterInput s)

/-- R324, R325, R341: while I = 0, or while irq_delay is 1, the requests of the boundary make no
difference to the step. -/
def Obligations.RequestsWaitWhileNotInterruptible : Prop :=
  ∀ (s : State) (r : Bool) (q q2 : List IntVector) (rest : List EnvInput),
    s.sreg.getLsbD 7 = false ∨ s.irqDelay = true →
    step { s with env := { reset := r, requests := q } :: rest } =
      step { s with env := { reset := r, requests := q2 } :: rest }

/-- R218, R325: SEI with I = 0, then the instruction after it runs before any pending interrupt,
whatever requests stand at both boundaries. -/
def Obligations.InstructionAfterSeiRunsFirst : Prop :=
  ∀ (s : State) (i : Instr), (envInput s).reset = false → (envInput (afterInput s)).reset = false →
    s.stopped = false → s.sleeping = false → s.sreg.getLsbD 7 = false →
    s.progWord s.pc = 0x9478#16 →
    decodeWords (s.progWord (s.pc + 1#14)) (s.progWord (s.pc + 2#14)) = .ok i →
    ∃ t, step s = .next t ∧ t.sreg = s.sreg ||| 0x80#8 ∧ t.irqDelay = true ∧ t.pc = s.pc + 1#14 ∧
      step t = exec i { afterInput t with irqDelay := false }

/-- R219, R341: after CLI no interrupt is taken at the next boundary, whatever requests stand
there: the instruction after it runs. -/
def Obligations.NoInterruptAfterCli : Prop :=
  ∀ (s : State) (i : Instr), (envInput s).reset = false → (envInput (afterInput s)).reset = false →
    s.stopped = false → s.sleeping = false →
    (s.sreg.getLsbD 7 = false ∨ s.irqDelay = true ∨ (envInput s).requests = []) →
    s.progWord s.pc = 0x94F8#16 →
    decodeWords (s.progWord (s.pc + 1#14)) (s.progWord (s.pc + 2#14)) = .ok i →
    ∃ t, step s = .next t ∧ t.sreg = s.sreg &&& 0x7F#8 ∧ t.pc = s.pc + 1#14 ∧
      step t = exec i { afterInput t with irqDelay := false }

/-! ## Invariants and reset -/

/-- Every step keeps the invariant: the memories canonical and within their address ranges, no
refused value in the record of device writes (the model's own, entry 9), and a delay only with I
set, awake and running. -/
def Obligations.EveryStepKeepsTheInvariant : Prop :=
  ∀ s t : State, s.Inv → step s = .next t → t.Inv

/-- The state after reset has the invariant. -/
def Obligations.ResetHasTheInvariant : Prop := State.reset.Inv

/-- R68: no step changes program memory, a reset included (10_state.md R30: it leaves the loaded
image). Nor the parameters of the run: VECTOR_BASE (R326) and RESET_PC (R363) are constants of the run
(R8), kept as fields of State by the model's choice (entry 10). -/
def Obligations.ProgramMemoryIsConstant : Prop :=
  ∀ s t : State, step s = .next t → t.flash = s.flash ∧ t.params = s.params

/-- R50: events are handed over in program order. The record of them is the model's own (entry 8): a
step adds to it and takes nothing away, a reset included (the model's choice, entries 8, 15). A step
consumes one boundary's input and counts device reads upwards: the schedule and the counts are the
model's own too (entries 6, 7). -/
def Obligations.EventsOnlyGrow : Prop :=
  ∀ s t : State, step s = .next t →
    (∃ l, t.events = s.events ++ l) ∧
    t.env = s.env.tail ∧ t.envRest = s.envRest ∧ t.boundaries = s.boundaries + 1 ∧
    s.draws ≤ t.draws ∧ t.draws ≤ s.draws + 2

/-- R30, R362, R363, R365: the values the spec gives for reset. -/
def Obligations.ResetValues : Prop :=
  State.reset.pc = 0x0000#14 ∧ State.reset.sreg = 0x00#8 ∧ State.reset.mcucr = 0x00#8 ∧
  ioRead State.reset 0x3E#6 = (0x00#8, State.reset) ∧
  ioRead State.reset 0x3D#6 = (0x00#8, State.reset) ∧
  State.reset.irqDelay = false ∧ State.reset.sleeping = false ∧ State.reset.stopped = false ∧
  (∀ a : DataAddr, 0x60 ≤ a.toNat → a.toNat ≤ 0x85F →
    memRead State.reset a = .fault (.readOfUnwrittenState a)) ∧
  (∀ v, push8 State.reset v = .next { State.reset with
    regs := State.reset.regs.set 0 v, sp := 0xFFF#12 })

/-! ## Frames of all instructions -/

/-- R19: an instruction that does not store to SREG changes the flags of R19's table only, and the
entries of the table that give a value give it: LSR clears N, the logic instructions and COM clear
V, COM sets C, CLR sets Z and clears S, V and N, RETI sets I. -/
def Obligations.FlagsWrittenAreThoseOfR19 : Prop :=
  ∀ (i : Instr) (s t : State), exec i s = .next t → 0x5F#16 ∉ storedTo s i →
    (∀ b : BitNo, b ∉ writtenFlags i → t.sreg.getLsbD b = s.sreg.getLsbD b) ∧
    (∀ d, i = .lsr d → t.sreg.getLsbD 2 = false) ∧
    (∀ d, i = .com d → t.sreg.getLsbD 3 = false ∧ t.sreg.getLsbD 0 = true) ∧
    (∀ d r k, (i = .and d r ∨ i = .andi d k ∨ i = .or d r ∨ i = .ori d k ∨ i = .eor d r ∨
      i = .cbr d k ∨ i = .sbr d k ∨ i = .tst d) → t.sreg.getLsbD 3 = false) ∧
    (∀ d, i = .clr d → t.sreg.getLsbD 4 = false ∧ t.sreg.getLsbD 3 = false ∧
      t.sreg.getLsbD 2 = false ∧ t.sreg.getLsbD 1 = true) ∧
    (i = .reti → t.sreg.getLsbD 7 = true)

/-- A general register changes only if the instruction names it as its destination or as half of
the pointer it moves, or if the instruction stores to the register's data address. -/
def Obligations.RegistersWrittenAreTheDestinations : Prop :=
  ∀ (i : Instr) (s t : State), exec i s = .next t →
    ∀ r : Reg, r ∉ writtenRegs i → regAddr r ∉ storedTo s i → t.regs[r] = s.regs[r]

/-- A byte of SRAM changes only at an address that the instruction stores to, and a byte of
program memory never. -/
def Obligations.MemoryChangesOnlyWhereStored : Prop :=
  ∀ (i : Instr) (s t : State), Memory.wf .sram s.sram = true → exec i s = .next t →
    (∀ a : DataAddr, a ∉ storedTo s i →
      Memory.read .sram t.sram a.toNat = Memory.read .sram s.sram a.toNat) ∧
    (∀ b, t.flashByte b = s.flashByte b)

/-- SP, MCUCR, the sleeping and stopped bits and irq_delay change only by the instructions, or at the
stored addresses, that the spec names. So do the model's own fields, with the instructions that make
what they record: the events (entry 8) and the record of device writes `ioWritten` (entry 9) by WDR and
stores to device registers only (that a write of MCUCR makes no event is entry 14), the count of device
reads (entry 7) by reads of data space only; the schedule and the count of boundaries (entry 6) and the
parameters (entry 10) by no instruction. -/
def Obligations.SpecialStateChangesOnlyWhereNamed : Prop :=
  ∀ (i : Instr) (s t : State), exec i s = .next t →
    (movesSP i = false → 0x5D#16 ∉ storedTo s i → 0x5E#16 ∉ storedTo s i → t.sp = s.sp) ∧
    (0x55#16 ∉ storedTo s i → t.mcucr = s.mcucr) ∧
    (i ≠ .sleep → t.sleeping = s.sleeping) ∧
    (i ≠ .brk → t.stopped = s.stopped) ∧
    (7 ∉ writtenFlags i → 0x5F#16 ∉ storedTo s i → t.irqDelay = s.irqDelay) ∧
    (i ≠ .wdr → (∀ a ∈ storedTo s i, isDevice a = false) →
      t.events = s.events ∧ t.ioWritten = s.ioWritten) ∧
    (readsData i = false → t.draws = s.draws) ∧
    t.env = s.env ∧ t.envRest = s.envRest ∧ t.boundaries = s.boundaries ∧ t.params = s.params

/-! ## Data transfer (40_data_transfer.md) -/

/-- MOV, MOVW, LDI, SER, SWAP: the destination, pc, and nothing else. MOVW for every pair of even
registers, as it can be encoded. -/
def Obligations.RegisterMoves : Prop :=
  ∀ (s : State) (d r : Reg) (k : Byte),
    exec (.mov d r) s = .next (afterReg s d s.regs[r] 1) ∧
    (d.val % 2 = 0 → r.val % 2 = 0 →
      exec (.movw d r) s = .next { s with
        regs := (s.regs.set d s.regs[r]).set (d + 1 : Reg) s.regs[(r + 1 : Reg)]
        pc := s.pc + 1#14 }) ∧
    exec (.ldi d k) s = .next (afterReg s d k 1) ∧
    exec (.ser d) s = .next (afterReg s d 0xFF#8 1) ∧
    exec (.swap d) s = .next (afterReg s d (s.regs[d].setWidth 4 ++ (s.regs[d] >>> 4).setWidth 4) 1)

/-- LD Rd,X; LD Rd,Y; LD Rd,Z; LDD Rd,Y+q; LDD Rd,Z+q; LDS Rd,k: from every data address that holds
a value (a register, an I/O register, SRAM) the byte goes to Rd, also where Rd is half of the
pointer; else the load stops and says why. A device's byte is free, the count of device reads is the
model's own (entry 7). -/
def Obligations.PlainLoads : Prop :=
  ∀ (s : State) (d : Reg) (q : BitVec 6) (k : Word) (i : Instr) (a : DataAddr) (n : Nat),
    ((i = .ldX d ∧ a = pairAt s 26 ∧ n = 1) ∨ (i = .ldY d ∧ a = pairAt s 28 ∧ n = 1) ∨
      (i = .ldZ d ∧ a = pairAt s 30 ∧ n = 1) ∨
      (i = .lddY d q ∧ a = pairAt s 28 + q.setWidth 16 ∧ n = 1) ∨
      (i = .lddZ d q ∧ a = pairAt s 30 + q.setWidth 16 ∧ n = 1) ∨
      (i = .lds d k ∧ a = k ∧ n = 2)) →
    (∀ v, byteAt s a = some v → exec i s = .next (afterReg (afterRead s a) d v n)) ∧
    (byteAt s a = none → exec i s = .fault (readFault a))

/-- LD Rd,P+ and LD Rd,-P for P = X, Y, Z, clear of R134: the byte at P (at P - 1) goes to Rd and P
becomes P + 1 (P - 1); where the address holds no value the load stops. A device's byte is free, the
count of device reads is the model's own (entry 7). -/
def Obligations.MovingPointerLoads : Prop :=
  ∀ (s : State) (d p : Reg) (i : Instr) (a b : DataAddr),
    ((i = .ldXInc d ∧ p = 26 ∧ a = pairAt s p ∧ b = a + 1#16) ∨
      (i = .ldXDec d ∧ p = 26 ∧ a = pairAt s p - 1#16 ∧ b = a) ∨
      (i = .ldYInc d ∧ p = 28 ∧ a = pairAt s p ∧ b = a + 1#16) ∨
      (i = .ldYDec d ∧ p = 28 ∧ a = pairAt s p - 1#16 ∧ b = a) ∨
      (i = .ldZInc d ∧ p = 30 ∧ a = pairAt s p ∧ b = a + 1#16) ∨
      (i = .ldZDec d ∧ p = 30 ∧ a = pairAt s p - 1#16 ∧ b = a)) →
    apart p d a →
    (∀ v, byteAt s a = some v → exec i s = .next { afterRead s a with
      regs := (pointerSet s.regs p b).set d v, pc := s.pc + 1#14 }) ∧
    (byteAt s a = none → exec i s = .fault (readFault a))

/-- ST X,Rr; ST Y,Rr; ST Z,Rr; STD Y+q,Rr; STD Z+q,Rr; STS k,Rr: the byte of Rr is stored at the
address, wherever it leads (register, SREG with its delay, SP, MCUCR, a device, SRAM; the records of
device writes are the model's own, entries 8, 9, 14); else the store stops and says why. -/
def Obligations.PlainStores : Prop :=
  ∀ (s : State) (r : Reg) (q : BitVec 6) (k : Word) (i : Instr) (a : DataAddr) (n : Nat),
    ((i = .stX r ∧ a = pairAt s 26 ∧ n = 1) ∨ (i = .stY r ∧ a = pairAt s 28 ∧ n = 1) ∨
      (i = .stZ r ∧ a = pairAt s 30 ∧ n = 1) ∨
      (i = .stdY q r ∧ a = pairAt s 28 + q.setWidth 16 ∧ n = 1) ∨
      (i = .stdZ q r ∧ a = pairAt s 30 + q.setWidth 16 ∧ n = 1) ∨
      (i = .sts k r ∧ a = k ∧ n = 2)) →
    (∀ t, stored s a s.regs[r] = some t →
      exec i s = .next { t with pc := s.pc + BitVec.ofNat 14 n }) ∧
    (stored s a s.regs[r] = none → exec i s = writeStop a)

/-- ST P+,Rr and ST -P,Rr for P = X, Y, Z, clear of R134: the byte of Rr is stored at P (at P - 1)
and P becomes P + 1 (P - 1); where the store is refused the instruction stops. The records of device
writes are the model's own (entries 8, 9, 14). -/
def Obligations.MovingPointerStores : Prop :=
  ∀ (s : State) (r p : Reg) (i : Instr) (a b : DataAddr),
    ((i = .stXInc r ∧ p = 26 ∧ a = pairAt s p ∧ b = a + 1#16) ∨
      (i = .stXDec r ∧ p = 26 ∧ a = pairAt s p - 1#16 ∧ b = a) ∨
      (i = .stYInc r ∧ p = 28 ∧ a = pairAt s p ∧ b = a + 1#16) ∨
      (i = .stYDec r ∧ p = 28 ∧ a = pairAt s p - 1#16 ∧ b = a) ∨
      (i = .stZInc r ∧ p = 30 ∧ a = pairAt s p ∧ b = a + 1#16) ∨
      (i = .stZDec r ∧ p = 30 ∧ a = pairAt s p - 1#16 ∧ b = a)) →
    apart p r a →
    (∀ t, stored s a s.regs[r] = some t → exec i s = .next { t with
      regs := pointerSet t.regs p b, pc := s.pc + 1#14 }) ∧
    (stored s a s.regs[r] = none → exec i s = writeStop a)

/-- R134: the forms that move a pointer refuse a data register that is half of it, and the LD and
ST forms an address that is one of its own registers. That the overlap is the reason named also where
the own address, or an address that does not exist, meets it is the model's choice (entry 23; R331
calls the reason named not significant). -/
def Obligations.PointerFormsRefusedByR134 : Prop :=
  (∀ (s : State) (r : Reg),
    (r = 26 ∨ r = 27 → ∀ i ∈ [Instr.ldXInc r, .ldXDec r, .stXInc r, .stXDec r],
      exec i s = .refused .pointerRegisterOverlap) ∧
    (r = 28 ∨ r = 29 → ∀ i ∈ [Instr.ldYInc r, .ldYDec r, .stYInc r, .stYDec r],
      exec i s = .refused .pointerRegisterOverlap) ∧
    (r = 30 ∨ r = 31 → ∀ i ∈ [Instr.ldZInc r, .ldZDec r, .lpmZInc r, .stZInc r, .stZDec r],
      exec i s = .refused .pointerRegisterOverlap)) ∧
  (∀ (s : State) (r p : Reg) (a : DataAddr) (i : Instr), r ≠ p → r ≠ p + 1 →
    (a.toNat = p.val ∨ a.toNat = p.val + 1) →
    ((p = 26 ∧ a = pairAt s p ∧ (i = .ldXInc r ∨ i = .stXInc r)) ∨
      (p = 26 ∧ a = pairAt s p - 1#16 ∧ (i = .ldXDec r ∨ i = .stXDec r)) ∨
      (p = 28 ∧ a = pairAt s p ∧ (i = .ldYInc r ∨ i = .stYInc r)) ∨
      (p = 28 ∧ a = pairAt s p - 1#16 ∧ (i = .ldYDec r ∨ i = .stYDec r)) ∨
      (p = 30 ∧ a = pairAt s p ∧ (i = .ldZInc r ∨ i = .stZInc r)) ∨
      (p = 30 ∧ a = pairAt s p - 1#16 ∧ (i = .ldZDec r ∨ i = .stZDec r))) →
    exec i s = .refused .pointerSelfAccess)

/-- LPM, LPM Rd,Z and LPM Rd,Z+ (Rd not R30, R31): within the flash the byte of program memory at Z,
the low byte of word Z / 2 for an even Z and the high byte for an odd one; from $8000 on they stop. -/
def Obligations.ProgramMemoryLoads : Prop :=
  ∀ (s : State) (d : Reg) (z : BitVec 16) (v : Byte), z = pairAt s 30 →
    v = (if z.getLsbD 0 then (s.progWord (BitVec.ofNat 14 (z.toNat / 2)) >>> 8).setWidth 8
      else (s.progWord (BitVec.ofNat 14 (z.toNat / 2))).setWidth 8) →
    (z.toNat < 0x8000 →
      exec .lpmR0 s = .next (afterReg s 0 v 1) ∧
      exec (.lpmZ d) s = .next (afterReg s d v 1) ∧
      (d ≠ 30 → d ≠ 31 → exec (.lpmZInc d) s = .next { s with
        regs := (pointerSet s.regs 30 (z + 1#16)).set d v, pc := s.pc + 1#14 })) ∧
    (0x8000 ≤ z.toNat →
      exec .lpmR0 s = .fault (.programAddressOutOfRange z) ∧
      exec (.lpmZ d) s = .fault (.programAddressOutOfRange z) ∧
      (d ≠ 30 → d ≠ 31 → exec (.lpmZInc d) s = .fault (.programAddressOutOfRange z)))

/-- R141: SPM is refused in every state. -/
def Obligations.SpmIsRefused : Prop :=
  ∀ s : State, exec .spm s = .refused .selfProgrammingNotModelled

/-- IN and OUT at every I/O address: IN never stops; OUT has the effect of a store to data address
A + $20, or stops as that does. The count of device reads and the records of device writes are the
model's own (entries 7, 8, 9, 14). -/
def Obligations.InAndOut : Prop :=
  ∀ (s : State) (r : Reg) (a : IoAddr),
    (∀ v, byteAt s (a.setWidth 16 + 0x20#16) = some v →
      exec (.inp r a) s = .next (afterReg (afterRead s (a.setWidth 16 + 0x20#16)) r v 1)) ∧
    byteAt s (a.setWidth 16 + 0x20#16) ≠ none ∧
    (∀ t, stored s (a.setWidth 16 + 0x20#16) s.regs[r] = some t →
      exec (.out a r) s = .next { t with pc := s.pc + 1#14 }) ∧
    (stored s (a.setWidth 16 + 0x20#16) s.regs[r] = none →
      exec (.out a r) s = writeStop (a.setWidth 16 + 0x20#16))

/-- PUSH and POP, with the stack anywhere in data space: PUSH stores Rr at SP and then lowers SP,
POP raises SP and then loads Rd from it. On a device register the model's own records and count follow
(entries 7, 8, 9, 14). -/
def Obligations.PushAndPop : Prop :=
  ∀ (s : State) (r : Reg),
    (∀ t, pushed s s.regs[r] = some t → exec (.push r) s = .next { t with pc := s.pc + 1#14 }) ∧
    (∀ u v, u = { s with sp := s.sp + 1#12 } → byteAt u (u.sp.setWidth 16) = some v →
      exec (.pop r) s = .next (afterReg (afterRead u (u.sp.setWidth 16)) r v 1)) ∧
    (∀ u, u = { s with sp := s.sp + 1#12 } → byteAt u (u.sp.setWidth 16) = none →
      exec (.pop r) s = .fault (readFault (u.sp.setWidth 16)))

/-! ## Branches, calls, skips (41_branch.md) -/

/-- RJMP, JMP, IJMP: pc and nothing else; JMP and IJMP within the flash. -/
def Obligations.Jumps : Prop :=
  (∀ (s : State) (k : BitVec 12), ∃ t : ProgAddr,
    exec (.rjmp k) s = .next { s with pc := t } ∧
    (t.toNat : Int) = ((s.pc.toNat : Int) + 1 + k.toInt) % 16384) ∧
  (∀ (s : State) (k : BitVec 22), k.toNat < 16384 →
    exec (.jmp k) s = .next { s with pc := k.setWidth 14 }) ∧
  (∀ s : State, (pairAt s 30).toNat < 16384 →
    exec .ijmp s = .next { s with pc := (pairAt s 30).setWidth 14 })

/-- R189: JMP, CALL, IJMP and ICALL to 16384 and above stop before anything is pushed. -/
def Obligations.JumpTargetsBeyondFlashStop : Prop :=
  (∀ (s : State) (k : BitVec 22), 16384 ≤ k.toNat →
    exec (.jmp k) s = .fault (.jumpTargetOutOfRange k.toNat) ∧
    exec (.call k) s = .fault (.jumpTargetOutOfRange k.toNat)) ∧
  (∀ s : State, 16384 ≤ (pairAt s 30).toNat →
    exec .ijmp s = .fault (.jumpTargetOutOfRange (pairAt s 30).toNat) ∧
    exec .icall s = .fault (.jumpTargetOutOfRange (pairAt s 30).toNat))

/-- RCALL, ICALL, CALL: the address after the call is pushed, wherever the stack lies (on device
registers with the model's own records, entries 8, 9, 14), and pc is the target. -/
def Obligations.Calls : Prop :=
  (∀ (s t : State) (k : BitVec 12), pushedPC s (s.pc + 1#14) = some t →
    exec (.rcall k) s = .next { t with pc := s.pc + 1#14 + k.signExtend 14 }) ∧
  (∀ s t : State, (pairAt s 30).toNat < 16384 → pushedPC s (s.pc + 1#14) = some t →
    exec .icall s = .next { t with pc := (pairAt s 30).setWidth 14 }) ∧
  (∀ (s t : State) (k : BitVec 22), k.toNat < 16384 → pushedPC s (s.pc + 2#14) = some t →
    exec (.call k) s = .next { t with pc := k.setWidth 14 })

/-- PUSH, the calls and the entry into an interrupt where the stack write does not go on: they stop
as R56 and R58 say, at the low byte or at the high byte of a return address, under the first reason
that the write meets (entry 23). -/
def Obligations.PushesThatStop : Prop :=
  (∀ (s : State) (r : Reg), pushed s s.regs[r] = none → exec (.push r) s = pushStop s) ∧
  (∀ (s : State) (k : BitVec 12), pushedPC s (s.pc + 1#14) = none →
    exec (.rcall k) s = pushPCStop s (s.pc + 1#14)) ∧
  (∀ s : State, (pairAt s 30).toNat < 16384 → pushedPC s (s.pc + 1#14) = none →
    exec .icall s = pushPCStop s (s.pc + 1#14)) ∧
  (∀ (s : State) (k : BitVec 22), k.toNat < 16384 → pushedPC s (s.pc + 2#14) = none →
    exec (.call k) s = pushPCStop s (s.pc + 2#14)) ∧
  (∀ (s : State) (n : IntVector), pushedPC s s.pc = none →
    interruptEntry s n = pushPCStop s s.pc)

/-- RET and RETI, wherever the stack lies: the high byte from SP + 1, the low byte from SP + 2, cut to
14 bits; RETI also sets I, with the delay if I was 0. Where a byte holds no value they stop. A device's
byte is free, the count of device reads is the model's own (entry 7). -/
def Obligations.Returns : Prop :=
  ∀ s u v : State, ∀ a b : DataAddr, u = { s with sp := s.sp + 1#12 } → a = u.sp.setWidth 16 →
    v = { afterRead u a with sp := s.sp + 2#12 } → b = v.sp.setWidth 16 →
    (∀ hi lo : Byte, byteAt u a = some hi → byteAt v b = some lo →
      exec .ret s = .next { afterRead v b with pc := (hi ++ lo).setWidth 14 } ∧
      exec .reti s = .next { afterRead v b with
        pc := (hi ++ lo).setWidth 14, sreg := s.sreg ||| 0x80#8
        irqDelay := s.irqDelay || !s.sreg.getLsbD 7 }) ∧
    (byteAt u a = none → exec .ret s = .fault (readFault a) ∧ exec .reti s = .fault (readFault a)) ∧
    (byteAt u a ≠ none → byteAt v b = none →
      exec .ret s = .fault (readFault b) ∧ exec .reti s = .fault (readFault b))

/-- R186 for CPSE, SBRC, SBRS: when the condition holds pc passes the next instruction, by the
length of the word at pc + 1; nothing but pc changes. -/
def Obligations.RegisterSkips : Prop :=
  ∀ (s : State) (d r : Reg) (b : BitNo) (next past : State),
    next = { s with pc := s.pc + 1#14 } →
    past = { s with pc := s.pc + 1#14 + BitVec.ofNat 14 (instrWords (s.progWord (s.pc + 1#14))) } →
    exec (.cpse d r) s = .next (if s.regs[d] = s.regs[r] then past else next) ∧
    exec (.sbrc r b) s = .next (if s.regs[r].getLsbD b = false then past else next) ∧
    exec (.sbrs r b) s = .next (if s.regs[r].getLsbD b = true then past else next)

/-- R186 for SBIC and SBIS: one device read, and the skip by the bit that it returns, whichever byte
the device returns; the count of device reads is the model's own (entry 7). -/
def Obligations.IoSkips : Prop :=
  ∀ (s : State) (a : LowIoAddr) (b : BitNo) (next past : State),
    next = { s with pc := s.pc + 1#14, draws := s.draws + 1 } →
    past = { next with
      pc := s.pc + 1#14 + BitVec.ofNat 14 (instrWords (s.progWord (s.pc + 1#14))) } →
    exec (.sbic a b) s = .next
      (if (Config.deviceDraw s.draws (a.setWidth 6)).getLsbD b = false then past else next) ∧
    exec (.sbis a b) s = .next
      (if (Config.deviceDraw s.draws (a.setWidth 6)).getLsbD b = true then past else next)

/-- R190: a conditional branch goes to pc + 1 + k (modulo 2^14, k signed) when its flag has its value,
else to pc + 1, and changes nothing else: BRBS, BRBC and the eighteen named branches with the flag
and the value of each. -/
def Obligations.ConditionalBranches : Prop :=
  ∀ (s : State) (k : BitVec 7) (i : Instr) (b : BitNo) (v : Bool),
    (i, b, v) ∈ [(.brbs b k, b, true), (.brbc b k, b, false),
      (.brcs k, 0, true), (.brlo k, 0, true), (.breq k, 1, true), (.brmi k, 2, true),
      (.brvs k, 3, true), (.brlt k, 4, true), (.brhs k, 5, true), (.brts k, 6, true),
      (.brie k, 7, true), (.brcc k, 0, false), (.brsh k, 0, false), (.brne k, 1, false),
      (.brpl k, 2, false), (.brvc k, 3, false), (.brge k, 4, false), (.brhc k, 5, false),
      (.brtc k, 6, false), ((.brid k : Instr), (7 : BitNo), false)] →
    ∃ t : ProgAddr, exec i s = .next { s with pc := t } ∧
      (t.toNat : Int) = if s.sreg.getLsbD b = v then ((s.pc.toNat : Int) + 1 + k.toInt) % 16384
        else ((s.pc.toNat : Int) + 1) % 16384

/-! ## Bits and flags (42_bit_and_bit_test.md) -/

/-- SBI and CBI at every I/O address they can name: one device read and one device write of the byte
read with bit b set (cleared), whichever byte the device returns. The write is an event in the model's
record (entry 8); the other record, `ioWritten`, and the count of device reads are the model's own
(entries 9, 7). -/
def Obligations.IoBitWrites : Prop :=
  ∀ (s : State) (a : LowIoAddr) (b : BitNo) (v : Byte),
    v = Config.deviceDraw s.draws (a.setWidth 6) →
    exec (.sbi a b) s = .next { s with
      draws := s.draws + 1, pc := s.pc + 1#14
      events := s.events ++ [.deviceWrite (a.setWidth 6) (v ||| 1#8 <<< b.val)]
      ioWritten := Memory.write .ioWritten s.ioWritten a.toNat (v ||| 1#8 <<< b.val) } ∧
    exec (.cbi a b) s = .next { s with
      draws := s.draws + 1, pc := s.pc + 1#14
      events := s.events ++ [.deviceWrite (a.setWidth 6) (v &&& ~~~(1#8 <<< b.val))]
      ioWritten := Memory.write .ioWritten s.ioWritten a.toNat (v &&& ~~~(1#8 <<< b.val)) }

/-- LSL, ROL, LSR, ROR, ASR: result and flags as R202 to R206 and R18 give them. -/
def Obligations.ShiftsAndRotates : Prop :=
  ∀ (s : State) (d : Reg) (a c : Byte), a = s.regs[d] → c = carryByte s →
    exec (.lsl d) s = .next (afterRegSreg s d (a <<< 1) (leftShiftSreg s.sreg a (a <<< 1))) ∧
    exec (.rol d) s = .next (afterRegSreg s d (a <<< 1 ||| c) (leftShiftSreg s.sreg a (a <<< 1 ||| c))) ∧
    exec (.lsr d) s = .next (afterRegSreg s d (a >>> 1) (rightShiftSreg s.sreg a (a >>> 1))) ∧
    exec (.ror d) s = .next
      (afterRegSreg s d (c <<< 7 ||| a >>> 1) (rightShiftSreg s.sreg a (c <<< 7 ||| a >>> 1))) ∧
    exec (.asr d) s = .next
      (afterRegSreg s d (a.sshiftRight 1) (rightShiftSreg s.sreg a (a.sshiftRight 1)))

/-- BSET, BCLR and the sixteen named forms: exactly the one flag, and the interrupt delay when I
goes from 0 to 1. -/
def Obligations.FlagSetsAndClears : Prop :=
  ∀ (s : State) (i : Instr) (b : BitNo) (x : Bool),
    (i, b, x) ∈ [(.bset b, b, true), (.bclr b, b, false), (.sec, 0, true), (.clc, 0, false),
      (.sez, 1, true), (.clz, 1, false), (.sen, 2, true), (.cln, 2, false), (.sev, 3, true),
      (.clv, 3, false), (.ses, 4, true), (.cls, 4, false), (.seh, 5, true), (.clh, 5, false),
      (.sett, 6, true), (.clt, 6, false), (.sei, 7, true),
      ((.cli : Instr), (7 : BitNo), false)] →
    ∃ f : Byte, exec i s = .next { s with
      sreg := f, pc := s.pc + 1#14
      irqDelay := s.irqDelay || (decide (b = 7) && x && !s.sreg.getLsbD 7) } ∧
      ∀ j : BitNo, f.getLsbD j = if j = b then x else s.sreg.getLsbD j

/-- BST copies bit b of Rd to T, BLD copies T to bit b of Rd; every other bit is kept. -/
def Obligations.TFlagTransfers : Prop :=
  ∀ (s : State) (d : Reg) (b : BitNo),
    (∃ f : Byte, exec (.bst d b) s = .next (afterSreg s f) ∧
      ∀ j : BitNo, f.getLsbD j = if j = 6 then s.regs[d].getLsbD b else s.sreg.getLsbD j) ∧
    (∃ v : Byte, exec (.bld d b) s = .next (afterReg s d v 1) ∧
      ∀ j : BitNo, v.getLsbD j = if j = b then s.sreg.getLsbD 6 else s.regs[d].getLsbD j)

/-! ## Arithmetic and logic (43_arithmetic_logic.md) -/

/-- ADD and ADC with the flags of R18, row "addition". -/
def Obligations.Additions : Prop :=
  ∀ (s : State) (d r : Reg) (a b res : Byte), a = s.regs[d] → b = s.regs[r] →
    (res = a + b →
      exec (.add d r) s = .next (afterRegSreg s d res (additionSreg s.sreg a b res))) ∧
    (res = a + b + carryByte s →
      exec (.adc d r) s = .next (afterRegSreg s d res (additionSreg s.sreg a b res)))

/-- SUB, SUBI, CP, CPI, NEG, SBC, SBCI, CPC with the flags of R18, rows "subtraction": the compares
write no register, the three that take the carry keep Z on a zero result. -/
def Obligations.SubtractionsAndCompares : Prop :=
  ∀ (s : State) (d r : Reg) (a b k : Byte), a = s.regs[d] → b = s.regs[r] →
    (∀ res, res = a - b →
      exec (.sub d r) s = .next (afterRegSreg s d res (subtractionSreg s.sreg a b res (res == 0#8))) ∧
      exec (.cp d r) s = .next (afterSreg s (subtractionSreg s.sreg a b res (res == 0#8)))) ∧
    (∀ res, res = a - k →
      exec (.subi d k) s = .next (afterRegSreg s d res (subtractionSreg s.sreg a k res (res == 0#8))) ∧
      exec (.cpi d k) s = .next (afterSreg s (subtractionSreg s.sreg a k res (res == 0#8)))) ∧
    (∀ res, res = 0#8 - a →
      exec (.neg d) s = .next
        (afterRegSreg s d res (subtractionSreg s.sreg 0#8 a res (res == 0#8)))) ∧
    (∀ res z, res = a - b - carryByte s → z = (res == 0#8 && s.sreg.getLsbD 1) →
      exec (.sbc d r) s = .next (afterRegSreg s d res (subtractionSreg s.sreg a b res z)) ∧
      exec (.cpc d r) s = .next (afterSreg s (subtractionSreg s.sreg a b res z))) ∧
    (∀ res z, res = a - k - carryByte s → z = (res == 0#8 && s.sreg.getLsbD 1) →
      exec (.sbci d k) s = .next (afterRegSreg s d res (subtractionSreg s.sreg a k res z)))

/-- ADIW and SBIW on the pairs they can name, with the flags of R18. -/
def Obligations.WordArithmetic : Prop :=
  ∀ (s : State) (d : Reg) (k : BitVec 6) (a : BitVec 16), a = pairAt s d →
    (∀ res, res = a + k.setWidth 16 →
      exec (.adiw d k) s = .next (afterPairSreg s d res
        (newSVNZC s.sreg (!a.getLsbD 15 && res.getLsbD 15) (res.getLsbD 15) (res == 0#16)
          (!res.getLsbD 15 && a.getLsbD 15)))) ∧
    (∀ res, res = a - k.setWidth 16 →
      exec (.sbiw d k) s = .next (afterPairSreg s d res
        (newSVNZC s.sreg (a.getLsbD 15 && !res.getLsbD 15) (res.getLsbD 15) (res == 0#16)
          (res.getLsbD 15 && !a.getLsbD 15))))

/-- AND, ANDI, OR, ORI, EOR, SBR, CBR, TST, CLR, COM with the flags of R18. -/
def Obligations.LogicInstructions : Prop :=
  ∀ (s : State) (d r : Reg) (a b k : Byte), a = s.regs[d] → b = s.regs[r] →
    exec (.and d r) s = .next (afterRegSreg s d (a &&& b) (logicSreg s.sreg (a &&& b))) ∧
    exec (.andi d k) s = .next (afterRegSreg s d (a &&& k) (logicSreg s.sreg (a &&& k))) ∧
    exec (.or d r) s = .next (afterRegSreg s d (a ||| b) (logicSreg s.sreg (a ||| b))) ∧
    exec (.ori d k) s = .next (afterRegSreg s d (a ||| k) (logicSreg s.sreg (a ||| k))) ∧
    exec (.eor d r) s = .next (afterRegSreg s d (a ^^^ b) (logicSreg s.sreg (a ^^^ b))) ∧
    exec (.sbr d k) s = .next (afterRegSreg s d (a ||| k) (logicSreg s.sreg (a ||| k))) ∧
    exec (.cbr d k) s = .next (afterRegSreg s d (a &&& ~~~k) (logicSreg s.sreg (a &&& ~~~k))) ∧
    exec (.tst d) s = .next (afterSreg s (logicSreg s.sreg a)) ∧
    exec (.clr d) s = .next (afterRegSreg s d 0#8 (newSVNZ s.sreg false false true)) ∧
    exec (.com d) s = .next
      (afterRegSreg s d (~~~a) (newSVNZC s.sreg false (!a.getLsbD 7) (a == 0xFF#8) true))

/-- INC and DEC: C is not affected; V is 1 exactly at $7F and at $80. -/
def Obligations.IncrementAndDecrement : Prop :=
  ∀ (s : State) (d : Reg) (a : Byte), a = s.regs[d] →
    exec (.inc d) s = .next (afterRegSreg s d (a + 1#8)
      (newSVNZ s.sreg (a == 0x7F#8) ((a + 1#8).getLsbD 7) (a == 0xFF#8))) ∧
    exec (.dec d) s = .next (afterRegSreg s d (a - 1#8)
      (newSVNZ s.sreg (a == 0x80#8) ((a - 1#8).getLsbD 7) (a == 0x01#8)))

/-- R278: the six multiplies: the 16-bit product of the operands, each extended by zeros or by its
sign as the instruction reads it, shifted left once by the fractional forms; C is bit 15 of the
product, Z is of the result; both operands are read before R1:R0 is written. -/
def Obligations.Multiplies : Prop :=
  ∀ (s : State) (d r : Reg) (a b : Byte) (i : Instr) (p res : BitVec 16),
    a = s.regs[d] → b = s.regs[r] →
    ((i = .mul d r ∧ p = a.setWidth 16 * b.setWidth 16 ∧ res = p) ∨
      (i = .muls d r ∧ p = a.signExtend 16 * b.signExtend 16 ∧ res = p) ∨
      (i = .mulsu d r ∧ p = a.signExtend 16 * b.setWidth 16 ∧ res = p) ∨
      (i = .fmul d r ∧ p = a.setWidth 16 * b.setWidth 16 ∧ res = p + p) ∨
      (i = .fmuls d r ∧ p = a.signExtend 16 * b.signExtend 16 ∧ res = p + p) ∨
      (i = .fmulsu d r ∧ p = a.signExtend 16 * b.setWidth 16 ∧ res = p + p)) →
    exec i s = .next (afterPairSreg s 0 res (newZC s.sreg (res == 0#16) (p.getLsbD 15)))

/-! ## MCU control (44_mcu_control.md) -/

/-- NOP, WDR, SLEEP, BREAK: pc + 1, and the event (in the model's record, entry 8), the sleeping bit
if SE is 1, the stopped bit unless break_is_nop (a parameter of the run, entry 10). -/
def Obligations.McuControl : Prop :=
  ∀ s : State,
    exec .nop s = .next { s with pc := s.pc + 1#14 } ∧
    exec .wdr s = .next { s with pc := s.pc + 1#14, events := s.events ++ [.watchdogRestart] } ∧
    exec .sleep s = .next { s with pc := s.pc + 1#14, sleeping := s.sleeping || s.mcucr.getLsbD 7 } ∧
    exec .brk s = .next { s with
      pc := s.pc + 1#14, stopped := s.stopped || !s.params.breakIsNop }
end

