-- ==== Sys2Proof/Laws/Flags.lean ====
section
/-! SUPPORT. What the flag helpers of 00_scope.md section 5.2 compute, as the Boolean formulas of
10_state.md R18, and which bits of SREG each write changes. -/
namespace Sys2Proof.Machine

/-! ## Bits of a byte -/

/-- Two bytes with the same bits are equal. -/
theorem byte_ext {a b : Byte} (h : ∀ i : BitNo, bitOf a i = bitOf b i) : a = b :=
  BitVec.eq_of_getLsbD_eq fun i hi => h ⟨i, hi⟩

/-- A bit read after a bit was put. -/
@[simp] theorem bitOf_withBit (v : Byte) (b c : BitNo) (x : Bool) :
    bitOf (withBit v b x) c = if c = b then x else bitOf v c := by
  have hb := b.isLt
  have hc := c.isLt
  unfold bitOf withBit
  cases x
  · simp only [Bool.false_eq_true, if_false, BitVec.getLsbD_and, BitVec.getLsbD_not,
      BitVec.getLsbD_shiftLeft, BitVec.getLsbD_one, Fin.ext_iff]
    by_cases h : c.val = b.val
    · simp [h, hb]
    · by_cases h2 : c.val < b.val <;> simp [h, h2, hc]; omega
  · simp only [if_true, BitVec.getLsbD_or, BitVec.getLsbD_shiftLeft, BitVec.getLsbD_one, Fin.ext_iff]
    by_cases h : c.val = b.val
    · simp [h, hb]
    · by_cases h2 : c.val < b.val <;> simp [h, h2, hc]; omega

/-- Bit i of a byte as arithmetic. -/
theorem bitOf_eq (v : Byte) (b : BitNo) : bitOf v b = decide (v.toNat / 2 ^ b.val % 2 = 1) := by
  unfold bitOf
  rw [BitVec.getLsbD, Nat.testBit_eq_decide_div_mod_eq]

theorem msb_eq_bitOf (v : Byte) : v.msb = bitOf v 7 := by
  simp [BitVec.msb, BitVec.getMsbD, bitOf]

theorem carryNat_le (c : Bool) : carryNat c ≤ 1 := by cases c <;> decide

/-! ## Addition (R18) -/

theorem addFlags_res (a b : Byte) (c : Bool) :
    (addFlags a b c).res = a + b + BitVec.ofNat 8 (carryNat c) := by
  simp [addFlags, BitVec.ofNat_add]

/-- C of an addition: Rd7·Rr7 + Rr7·¬R7 + ¬R7·Rd7. -/
theorem addFlags_c (a b : Byte) (c : Bool) : (addFlags a b c).c =
    (bitOf a 7 && bitOf b 7 || bitOf b 7 && !bitOf (addFlags a b c).res 7 ||
      !bitOf (addFlags a b c).res 7 && bitOf a 7) := by
  have ha := a.isLt; have hb := b.isLt; have hc := carryNat_le c
  rw [Bool.eq_iff_iff]
  simp only [addFlags, bitOf_eq, Bool.or_eq_true, Bool.and_eq_true, Bool.not_eq_true',
    decide_eq_true_eq, decide_eq_false_iff_not, BitVec.toNat_ofNat]
  simp only [Fin.isValue, show ((7 : BitNo) : Nat) = 7 from rfl]
  omega

/-- H of an addition: Rd3·Rr3 + Rr3·¬R3 + ¬R3·Rd3. -/
theorem addFlags_h (a b : Byte) (c : Bool) : (addFlags a b c).h =
    (bitOf a 3 && bitOf b 3 || bitOf b 3 && !bitOf (addFlags a b c).res 3 ||
      !bitOf (addFlags a b c).res 3 && bitOf a 3) := by
  have ha := a.isLt; have hb := b.isLt; have hc := carryNat_le c
  rw [Bool.eq_iff_iff]
  simp only [addFlags, bitOf_eq, Bool.or_eq_true, Bool.and_eq_true, Bool.not_eq_true',
    decide_eq_true_eq, decide_eq_false_iff_not, BitVec.toNat_ofNat]
  simp only [show ((3 : BitNo) : Nat) = 3 from rfl]
  omega

/-- V of an addition: Rd7·Rr7·¬R7 + ¬Rd7·¬Rr7·R7. -/
theorem addFlags_v (a b : Byte) (c : Bool) : (addFlags a b c).v =
    (bitOf a 7 && bitOf b 7 && !bitOf (addFlags a b c).res 7 ||
      !bitOf a 7 && !bitOf b 7 && bitOf (addFlags a b c).res 7) := by
  simp only [addFlags, msb_eq_bitOf]
  cases bitOf a 7 <;> cases bitOf b 7 <;> simp

/-! ## Subtraction (R18) -/

theorem subFlags_res (a b : Byte) (c : Bool) :
    (subFlags a b c).res = a - b - BitVec.ofNat 8 (carryNat c) := by
  apply BitVec.eq_of_toInt_eq
  simp only [subFlags, BitVec.toInt_sub, BitVec.toInt_ofInt]
  have ha := a.isLt; have hb := b.isLt; have hc := carryNat_le c
  simp only [BitVec.toInt_eq_toNat_bmod, BitVec.toNat_ofNat]
  simp only [Int.bmod_sub_bmod, Int.sub_bmod_bmod]
  congr 1
  omega

theorem subFlags_res_toNat (a b : Byte) (c : Bool) :
    (subFlags a b c).res.toNat = (256 + a.toNat - b.toNat + (256 - carryNat c)) % 256 := by
  have ha := a.isLt; have hb := b.isLt; have hc := carryNat_le c
  simp only [subFlags, BitVec.toNat_ofInt]
  omega

/-- C of a subtraction: ¬Rd7·Rr7 + Rr7·R7 + R7·¬Rd7. -/
theorem subFlags_c (a b : Byte) (c : Bool) : (subFlags a b c).c =
    (!bitOf a 7 && bitOf b 7 || bitOf b 7 && bitOf (subFlags a b c).res 7 ||
      bitOf (subFlags a b c).res 7 && !bitOf a 7) := by
  have ha := a.isLt; have hb := b.isLt; have hc := carryNat_le c
  rw [Bool.eq_iff_iff]
  simp only [bitOf_eq, Bool.or_eq_true, Bool.and_eq_true, Bool.not_eq_true', decide_eq_true_eq,
    decide_eq_false_iff_not, subFlags_res_toNat]
  simp only [subFlags, decide_eq_true_eq, show ((7 : BitNo) : Nat) = 7 from rfl]
  omega

/-- H of a subtraction: ¬Rd3·Rr3 + Rr3·R3 + R3·¬Rd3. -/
theorem subFlags_h (a b : Byte) (c : Bool) : (subFlags a b c).h =
    (!bitOf a 3 && bitOf b 3 || bitOf b 3 && bitOf (subFlags a b c).res 3 ||
      bitOf (subFlags a b c).res 3 && !bitOf a 3) := by
  have ha := a.isLt; have hb := b.isLt; have hc := carryNat_le c
  rw [Bool.eq_iff_iff]
  simp only [bitOf_eq, Bool.or_eq_true, Bool.and_eq_true, Bool.not_eq_true', decide_eq_true_eq,
    decide_eq_false_iff_not, subFlags_res_toNat]
  simp only [subFlags, decide_eq_true_eq, show ((3 : BitNo) : Nat) = 3 from rfl]
  omega

/-- V of a subtraction: Rd7·¬Rr7·¬R7 + ¬Rd7·Rr7·R7. -/
theorem subFlags_v (a b : Byte) (c : Bool) : (subFlags a b c).v =
    (bitOf a 7 && !bitOf b 7 && !bitOf (subFlags a b c).res 7 ||
      !bitOf a 7 && bitOf b 7 && bitOf (subFlags a b c).res 7) := by
  simp only [subFlags, msb_eq_bitOf]
  cases bitOf a 7 <;> cases bitOf b 7 <;> simp

/-! ## Which bits of SREG a write changes (R19) -/

/-- The six flags written, I and T kept. -/
theorem bitOf_writeHSVNZC (sreg : Byte) (x : Alu) (b : BitNo) : bitOf (writeHSVNZC sreg x) b =
    if b = flagC then x.c else if b = flagZ then x.z else if b = flagN then x.n
    else if b = flagV then x.v else if b = flagS then x.s else if b = flagH then x.h
    else bitOf sreg b := by
  simp only [writeHSVNZC, bitOf_withBit]

/-- The five flags written, I, T and H kept. -/
theorem bitOf_writeSVNZC (sreg : Byte) (v n z c : Bool) (b : BitNo) :
    bitOf (writeSVNZC sreg v n z c) b =
      if b = flagC then c else if b = flagZ then z else if b = flagN then n
      else if b = flagV then v else if b = flagS then n != v else bitOf sreg b := by
  simp only [writeSVNZC, bitOf_withBit]

/-- The four flags written, I, T, H and C kept. -/
theorem bitOf_writeSVNZ (sreg : Byte) (v n z : Bool) (b : BitNo) :
    bitOf (writeSVNZ sreg v n z) b =
      if b = flagZ then z else if b = flagN then n
      else if b = flagV then v else if b = flagS then n != v else bitOf sreg b := by
  simp only [writeSVNZ, bitOf_withBit]

/-- Z and C written, all else kept. -/
theorem bitOf_writeZC (sreg : Byte) (z c : Bool) (b : BitNo) :
    bitOf (writeZC sreg z c) b = if b = flagC then c else if b = flagZ then z else bitOf sreg b := by
  simp only [writeZC, bitOf_withBit]

end Sys2Proof.Machine
end

