-- ==== Sys2Proof/Laws/Memory.lean ====
section
/-! SUPPORT. The laws of memories: a read after a write, and that every operation keeps the
canonical form. -/
namespace Sys2Proof.Machine

theorem listedAt_listAt (m : Memory) (a b : Nat) (v : Byte) (h : rising m = true) :
    listedAt (listAt m a v) b = if b = a then some v else listedAt m b := by
  induction m with
  | nil => simp [listAt, listedAt, eq_comm]
  | cons c rest ih =>
    obtain ⟨k, w⟩ := c
    have hr : rising rest = true := by
      cases rest with
      | nil => rfl
      | cons d t => simp [rising] at h; exact h.2
    simp only [listAt]
    split
    · simp [listedAt, eq_comm]
    · split
      · rename_i he
        simp only [listedAt, ← he, eq_comm (a := a)]; split <;> simp_all
      · simp only [listedAt, ih hr]; split <;> split <;> simp_all

theorem listedAt_unlistAt (m : Memory) (a b : Nat) :
    listedAt (unlistAt m a) b = if b = a then none else listedAt m b := by
  induction m with
  | nil => simp [unlistAt, listedAt]
  | cons c rest ih =>
    obtain ⟨k, w⟩ := c
    simp only [unlistAt]
    split
    · rename_i he
      simp only [listedAt, ← he, eq_comm (a := k)]; split <;> simp_all
    · simp only [listedAt, ih]; split <;> split <;> simp_all

theorem rising_of_wf {sp : Space} {m : Memory} (h : Memory.wf sp m = true) : rising m = true := by
  simp only [Memory.wf, Bool.and_eq_true] at h
  exact h.1

/-- A read after a write of one byte. -/
theorem read_write (sp : Space) (m : Memory) (a b : Nat) (v : Byte) (h : Memory.wf sp m = true) :
    Memory.read sp (Memory.write sp m a v) b = if b = a then some v else Memory.read sp m b := by
  simp only [Memory.read, Memory.write]
  by_cases hv : unlisted sp = some v
  · rw [if_pos hv, listedAt_unlistAt]
    by_cases hb : b = a <;> simp [hb, hv]
  · rw [if_neg hv, listedAt_listAt m a b v (rising_of_wf h)]
    by_cases hb : b = a <;> simp [hb]

/-- Rising addresses: the rest rises, and the head's address is below all of them. -/
theorem rising_cons (c : Host.Cell) (m : Memory) :
    rising (c :: m) = true ↔ (∀ d ∈ m, c.1 < d.1) ∧ rising m = true := by
  induction m generalizing c with
  | nil => simp [rising]
  | cons d t ih =>
    have hd := ih d
    simp only [rising, Bool.and_eq_true, decide_eq_true_eq, List.mem_cons, forall_eq_or_imp, hd]
    constructor
    · rintro ⟨h1, h2, h3⟩
      exact ⟨⟨h1, fun e he => lt_trans h1 (h2 e he)⟩, h2, h3⟩
    · rintro ⟨⟨h1, _⟩, h2, h3⟩
      exact ⟨h1, h2, h3⟩

theorem mem_listAt {m : Memory} {a : Nat} {v : Byte} {c : Host.Cell} (h : c ∈ listAt m a v) :
    c = (a, v) ∨ c ∈ m := by
  induction m with
  | nil => simp_all [listAt]
  | cons d t ih =>
    simp only [listAt] at h
    split at h
    · simp_all
    · split at h
      · simp only [List.mem_cons] at h ⊢; tauto
      · simp only [List.mem_cons] at h ⊢
        rcases h with h | h
        · tauto
        · rcases ih h with h | h <;> tauto

theorem mem_unlistAt {m : Memory} {a : Nat} {c : Host.Cell} (h : c ∈ unlistAt m a) : c ∈ m := by
  induction m with
  | nil => simp_all [unlistAt]
  | cons d t ih =>
    simp only [unlistAt] at h
    split at h
    · exact List.mem_cons_of_mem _ (ih h)
    · simp only [List.mem_cons] at h ⊢
      rcases h with h | h
      · tauto
      · exact Or.inr (ih h)

/-- A cell of a written memory is the written one or was there before. -/
theorem mem_write {sp : Space} {m : Memory} {a : Nat} {v : Byte} {c : Host.Cell}
    (h : c ∈ Memory.write sp m a v) : c = (a, v) ∨ c ∈ m := by
  unfold Memory.write at h
  split at h
  · exact Or.inr (mem_unlistAt h)
  · exact mem_listAt h

theorem rising_listAt (m : Memory) (a : Nat) (v : Byte) (h : rising m = true) :
    rising (listAt m a v) = true := by
  induction m with
  | nil => rfl
  | cons c rest ih =>
    have h' := (rising_cons c rest).1 h
    simp only [listAt]
    split
    · rename_i hlt
      rw [rising_cons]
      refine ⟨?_, h⟩
      simp only [List.mem_cons, forall_eq_or_imp]
      exact ⟨hlt, fun d hd => lt_trans hlt (h'.1 d hd)⟩
    · split
      · rename_i hle heq
        rw [rising_cons]
        exact ⟨fun d hd => by have := h'.1 d hd; simp_all, h'.2⟩
      · rename_i hle hne
        rw [rising_cons]
        refine ⟨fun d hd => ?_, ih h'.2⟩
        rcases mem_listAt hd with rfl | hd
        · simp only; omega
        · exact h'.1 d hd

theorem rising_unlistAt (m : Memory) (a : Nat) (h : rising m = true) :
    rising (unlistAt m a) = true := by
  induction m with
  | nil => rfl
  | cons c rest ih =>
    have h' := (rising_cons c rest).1 h
    simp only [unlistAt]
    split
    · exact ih h'.2
    · rw [rising_cons]
      exact ⟨fun d hd => h'.1 d (mem_unlistAt hd), ih h'.2⟩

/-- A write keeps the canonical form. -/
theorem wf_write (sp : Space) (m : Memory) (a : Nat) (v : Byte) (h : Memory.wf sp m = true) :
    Memory.wf sp (Memory.write sp m a v) = true := by
  have hr := rising_of_wf h
  simp only [Memory.wf, Bool.and_eq_true, List.all_eq_true, decide_eq_true_eq] at h ⊢
  constructor
  · unfold Memory.write; split
    · exact rising_unlistAt m a hr
    · exact rising_listAt m a v hr
  · intro c hc
    unfold Memory.write at hc
    split at hc
    · exact h.2 c (mem_unlistAt hc)
    · rename_i hv
      rcases mem_listAt hc with rfl | hc
      · exact hv
      · exact h.2 c hc

/-- The empty memory is canonical. -/
theorem wf_nil (sp : Space) : Memory.wf sp [] = true := rfl

/-- A property of all cells survives a write of a cell that has it. -/
theorem all_write {sp : Space} {m : Memory} {a : Nat} {v : Byte} (p : Host.Cell → Bool)
    (hm : m.all p = true) (hc : p (a, v) = true) : (Memory.write sp m a v).all p = true := by
  rw [List.all_eq_true] at hm ⊢
  intro c h
  rcases mem_write h with rfl | h
  · exact hc
  · exact hm c h

/-- A listed address is read as its cell says. -/
theorem listedAt_of_mem {m : Memory} (h : rising m = true) {c : Host.Cell} (hc : c ∈ m) :
    listedAt m c.1 = some c.2 := by
  induction m with
  | nil => simp at hc
  | cons d t ih =>
    obtain ⟨k, w⟩ := d
    have h' := (rising_cons _ t).1 h
    rcases List.mem_cons.1 hc with rfl | hc
    · simp [listedAt]
    · have := h'.1 c hc
      simp only [listedAt]
      rw [if_neg (by simp only at this; omega), ih h'.2 hc]

end Sys2Proof.Machine
end

