-- ==== Sys2Proof/Laws/State.lean ====
section
/-! SUPPORT. What every update of a state does to every field and to every view of it, by rfl, so
that no later proof unfolds a record update. -/
namespace Sys2Proof.Machine

variable (s : State)

/-! ### setReg -/
@[simp] theorem setReg_regs (d : Reg) (v : Byte) : (s.setReg d v).regs = s.regs.set d v := rfl
@[simp] theorem setReg_pc (d : Reg) (v : Byte) : (s.setReg d v).pc = s.pc := rfl
@[simp] theorem setReg_sreg (d : Reg) (v : Byte) : (s.setReg d v).sreg = s.sreg := rfl
@[simp] theorem setReg_sp (d : Reg) (v : Byte) : (s.setReg d v).sp = s.sp := rfl
@[simp] theorem setReg_mcucr (d : Reg) (v : Byte) : (s.setReg d v).mcucr = s.mcucr := rfl
@[simp] theorem setReg_irqDelay (d : Reg) (v : Byte) : (s.setReg d v).irqDelay = s.irqDelay := rfl
@[simp] theorem setReg_sleeping (d : Reg) (v : Byte) : (s.setReg d v).sleeping = s.sleeping := rfl
@[simp] theorem setReg_stopped (d : Reg) (v : Byte) : (s.setReg d v).stopped = s.stopped := rfl
@[simp] theorem setReg_sram (d : Reg) (v : Byte) : (s.setReg d v).sram = s.sram := rfl
@[simp] theorem setReg_flash (d : Reg) (v : Byte) : (s.setReg d v).flash = s.flash := rfl
@[simp] theorem setReg_ioWritten (d : Reg) (v : Byte) : (s.setReg d v).ioWritten = s.ioWritten := rfl
@[simp] theorem setReg_events (d : Reg) (v : Byte) : (s.setReg d v).events = s.events := rfl
@[simp] theorem setReg_env (d : Reg) (v : Byte) : (s.setReg d v).env = s.env := rfl
@[simp] theorem setReg_envRest (d : Reg) (v : Byte) : (s.setReg d v).envRest = s.envRest := rfl
@[simp] theorem setReg_boundaries (d : Reg) (v : Byte) : (s.setReg d v).boundaries = s.boundaries := rfl
@[simp] theorem setReg_draws (d : Reg) (v : Byte) : (s.setReg d v).draws = s.draws := rfl
@[simp] theorem setReg_params (d : Reg) (v : Byte) : (s.setReg d v).params = s.params := rfl
@[simp] theorem setReg_flag (d : Reg) (v : Byte) (b : BitNo) : (s.setReg d v).flag b = s.flag b := rfl
@[simp] theorem setReg_spAddr (d : Reg) (v : Byte) : (s.setReg d v).spAddr = s.spAddr := rfl
@[simp] theorem setReg_sph (d : Reg) (v : Byte) : (s.setReg d v).sph = s.sph := rfl
@[simp] theorem setReg_spl (d : Reg) (v : Byte) : (s.setReg d v).spl = s.spl := rfl
@[simp] theorem setReg_flashByte (d : Reg) (v : Byte) (k : Nat) : (s.setReg d v).flashByte k = s.flashByte k := rfl
@[simp] theorem setReg_progWord (d : Reg) (v : Byte) (w : ProgAddr) : (s.setReg d v).progWord w = s.progWord w := rfl
@[simp] theorem setReg_interruptible (d : Reg) (v : Byte) : (s.setReg d v).interruptible = s.interruptible := rfl

/-! ### setPair -/
@[simp] theorem setPair_pc (d : Reg) (v : BitVec 16) : (s.setPair d v).pc = s.pc := rfl
@[simp] theorem setPair_sreg (d : Reg) (v : BitVec 16) : (s.setPair d v).sreg = s.sreg := rfl
@[simp] theorem setPair_sp (d : Reg) (v : BitVec 16) : (s.setPair d v).sp = s.sp := rfl
@[simp] theorem setPair_mcucr (d : Reg) (v : BitVec 16) : (s.setPair d v).mcucr = s.mcucr := rfl
@[simp] theorem setPair_irqDelay (d : Reg) (v : BitVec 16) : (s.setPair d v).irqDelay = s.irqDelay := rfl
@[simp] theorem setPair_sleeping (d : Reg) (v : BitVec 16) : (s.setPair d v).sleeping = s.sleeping := rfl
@[simp] theorem setPair_stopped (d : Reg) (v : BitVec 16) : (s.setPair d v).stopped = s.stopped := rfl
@[simp] theorem setPair_sram (d : Reg) (v : BitVec 16) : (s.setPair d v).sram = s.sram := rfl
@[simp] theorem setPair_flash (d : Reg) (v : BitVec 16) : (s.setPair d v).flash = s.flash := rfl
@[simp] theorem setPair_ioWritten (d : Reg) (v : BitVec 16) : (s.setPair d v).ioWritten = s.ioWritten := rfl
@[simp] theorem setPair_events (d : Reg) (v : BitVec 16) : (s.setPair d v).events = s.events := rfl
@[simp] theorem setPair_env (d : Reg) (v : BitVec 16) : (s.setPair d v).env = s.env := rfl
@[simp] theorem setPair_envRest (d : Reg) (v : BitVec 16) : (s.setPair d v).envRest = s.envRest := rfl
@[simp] theorem setPair_boundaries (d : Reg) (v : BitVec 16) : (s.setPair d v).boundaries = s.boundaries := rfl
@[simp] theorem setPair_draws (d : Reg) (v : BitVec 16) : (s.setPair d v).draws = s.draws := rfl
@[simp] theorem setPair_params (d : Reg) (v : BitVec 16) : (s.setPair d v).params = s.params := rfl
@[simp] theorem setPair_flag (d : Reg) (v : BitVec 16) (b : BitNo) : (s.setPair d v).flag b = s.flag b := rfl
@[simp] theorem setPair_spAddr (d : Reg) (v : BitVec 16) : (s.setPair d v).spAddr = s.spAddr := rfl
@[simp] theorem setPair_sph (d : Reg) (v : BitVec 16) : (s.setPair d v).sph = s.sph := rfl
@[simp] theorem setPair_spl (d : Reg) (v : BitVec 16) : (s.setPair d v).spl = s.spl := rfl
@[simp] theorem setPair_flashByte (d : Reg) (v : BitVec 16) (k : Nat) : (s.setPair d v).flashByte k = s.flashByte k := rfl
@[simp] theorem setPair_progWord (d : Reg) (v : BitVec 16) (w : ProgAddr) : (s.setPair d v).progWord w = s.progWord w := rfl
@[simp] theorem setPair_interruptible (d : Reg) (v : BitVec 16) : (s.setPair d v).interruptible = s.interruptible := rfl

/-! ### setPointer -/
@[simp] theorem setPointer_pc (p : Pointer) (a : DataAddr) : (s.setPointer p a).pc = s.pc := rfl
@[simp] theorem setPointer_sreg (p : Pointer) (a : DataAddr) : (s.setPointer p a).sreg = s.sreg := rfl
@[simp] theorem setPointer_sp (p : Pointer) (a : DataAddr) : (s.setPointer p a).sp = s.sp := rfl
@[simp] theorem setPointer_mcucr (p : Pointer) (a : DataAddr) : (s.setPointer p a).mcucr = s.mcucr := rfl
@[simp] theorem setPointer_irqDelay (p : Pointer) (a : DataAddr) : (s.setPointer p a).irqDelay = s.irqDelay := rfl
@[simp] theorem setPointer_sleeping (p : Pointer) (a : DataAddr) : (s.setPointer p a).sleeping = s.sleeping := rfl
@[simp] theorem setPointer_stopped (p : Pointer) (a : DataAddr) : (s.setPointer p a).stopped = s.stopped := rfl
@[simp] theorem setPointer_sram (p : Pointer) (a : DataAddr) : (s.setPointer p a).sram = s.sram := rfl
@[simp] theorem setPointer_flash (p : Pointer) (a : DataAddr) : (s.setPointer p a).flash = s.flash := rfl
@[simp] theorem setPointer_ioWritten (p : Pointer) (a : DataAddr) : (s.setPointer p a).ioWritten = s.ioWritten := rfl
@[simp] theorem setPointer_events (p : Pointer) (a : DataAddr) : (s.setPointer p a).events = s.events := rfl
@[simp] theorem setPointer_env (p : Pointer) (a : DataAddr) : (s.setPointer p a).env = s.env := rfl
@[simp] theorem setPointer_envRest (p : Pointer) (a : DataAddr) : (s.setPointer p a).envRest = s.envRest := rfl
@[simp] theorem setPointer_boundaries (p : Pointer) (a : DataAddr) : (s.setPointer p a).boundaries = s.boundaries := rfl
@[simp] theorem setPointer_draws (p : Pointer) (a : DataAddr) : (s.setPointer p a).draws = s.draws := rfl
@[simp] theorem setPointer_params (p : Pointer) (a : DataAddr) : (s.setPointer p a).params = s.params := rfl
@[simp] theorem setPointer_flag (p : Pointer) (a : DataAddr) (b : BitNo) : (s.setPointer p a).flag b = s.flag b := rfl
@[simp] theorem setPointer_spAddr (p : Pointer) (a : DataAddr) : (s.setPointer p a).spAddr = s.spAddr := rfl
@[simp] theorem setPointer_sph (p : Pointer) (a : DataAddr) : (s.setPointer p a).sph = s.sph := rfl
@[simp] theorem setPointer_spl (p : Pointer) (a : DataAddr) : (s.setPointer p a).spl = s.spl := rfl
@[simp] theorem setPointer_flashByte (p : Pointer) (a : DataAddr) (k : Nat) : (s.setPointer p a).flashByte k = s.flashByte k := rfl
@[simp] theorem setPointer_progWord (p : Pointer) (a : DataAddr) (w : ProgAddr) : (s.setPointer p a).progWord w = s.progWord w := rfl
@[simp] theorem setPointer_interruptible (p : Pointer) (a : DataAddr) : (s.setPointer p a).interruptible = s.interruptible := rfl

/-! ### advance -/
@[simp] theorem advance_regs (n : Nat) : (s.advance n).regs = s.regs := rfl
@[simp] theorem advance_pc (n : Nat) : (s.advance n).pc = s.pc + BitVec.ofNat 14 n := rfl
@[simp] theorem advance_sreg (n : Nat) : (s.advance n).sreg = s.sreg := rfl
@[simp] theorem advance_sp (n : Nat) : (s.advance n).sp = s.sp := rfl
@[simp] theorem advance_mcucr (n : Nat) : (s.advance n).mcucr = s.mcucr := rfl
@[simp] theorem advance_irqDelay (n : Nat) : (s.advance n).irqDelay = s.irqDelay := rfl
@[simp] theorem advance_sleeping (n : Nat) : (s.advance n).sleeping = s.sleeping := rfl
@[simp] theorem advance_stopped (n : Nat) : (s.advance n).stopped = s.stopped := rfl
@[simp] theorem advance_sram (n : Nat) : (s.advance n).sram = s.sram := rfl
@[simp] theorem advance_flash (n : Nat) : (s.advance n).flash = s.flash := rfl
@[simp] theorem advance_ioWritten (n : Nat) : (s.advance n).ioWritten = s.ioWritten := rfl
@[simp] theorem advance_events (n : Nat) : (s.advance n).events = s.events := rfl
@[simp] theorem advance_env (n : Nat) : (s.advance n).env = s.env := rfl
@[simp] theorem advance_envRest (n : Nat) : (s.advance n).envRest = s.envRest := rfl
@[simp] theorem advance_boundaries (n : Nat) : (s.advance n).boundaries = s.boundaries := rfl
@[simp] theorem advance_draws (n : Nat) : (s.advance n).draws = s.draws := rfl
@[simp] theorem advance_params (n : Nat) : (s.advance n).params = s.params := rfl
@[simp] theorem advance_reg (n : Nat) (r : Reg) : (s.advance n).reg r = s.reg r := rfl
@[simp] theorem advance_pair (n : Nat) (r : Reg) : (s.advance n).pair r = s.pair r := rfl
@[simp] theorem advance_pointer (n : Nat) (p : Pointer) : (s.advance n).pointer p = s.pointer p := rfl
@[simp] theorem advance_flag (n : Nat) (b : BitNo) : (s.advance n).flag b = s.flag b := rfl
@[simp] theorem advance_spAddr (n : Nat) : (s.advance n).spAddr = s.spAddr := rfl
@[simp] theorem advance_sph (n : Nat) : (s.advance n).sph = s.sph := rfl
@[simp] theorem advance_spl (n : Nat) : (s.advance n).spl = s.spl := rfl
@[simp] theorem advance_flashByte (n : Nat) (k : Nat) : (s.advance n).flashByte k = s.flashByte k := rfl
@[simp] theorem advance_progWord (n : Nat) (w : ProgAddr) : (s.advance n).progWord w = s.progWord w := rfl
@[simp] theorem advance_interruptible (n : Nat) : (s.advance n).interruptible = s.interruptible := rfl

/-! ### jumpTo -/
@[simp] theorem jumpTo_regs (t : ProgAddr) : (s.jumpTo t).regs = s.regs := rfl
@[simp] theorem jumpTo_pc (t : ProgAddr) : (s.jumpTo t).pc = t := rfl
@[simp] theorem jumpTo_sreg (t : ProgAddr) : (s.jumpTo t).sreg = s.sreg := rfl
@[simp] theorem jumpTo_sp (t : ProgAddr) : (s.jumpTo t).sp = s.sp := rfl
@[simp] theorem jumpTo_mcucr (t : ProgAddr) : (s.jumpTo t).mcucr = s.mcucr := rfl
@[simp] theorem jumpTo_irqDelay (t : ProgAddr) : (s.jumpTo t).irqDelay = s.irqDelay := rfl
@[simp] theorem jumpTo_sleeping (t : ProgAddr) : (s.jumpTo t).sleeping = s.sleeping := rfl
@[simp] theorem jumpTo_stopped (t : ProgAddr) : (s.jumpTo t).stopped = s.stopped := rfl
@[simp] theorem jumpTo_sram (t : ProgAddr) : (s.jumpTo t).sram = s.sram := rfl
@[simp] theorem jumpTo_flash (t : ProgAddr) : (s.jumpTo t).flash = s.flash := rfl
@[simp] theorem jumpTo_ioWritten (t : ProgAddr) : (s.jumpTo t).ioWritten = s.ioWritten := rfl
@[simp] theorem jumpTo_events (t : ProgAddr) : (s.jumpTo t).events = s.events := rfl
@[simp] theorem jumpTo_env (t : ProgAddr) : (s.jumpTo t).env = s.env := rfl
@[simp] theorem jumpTo_envRest (t : ProgAddr) : (s.jumpTo t).envRest = s.envRest := rfl
@[simp] theorem jumpTo_boundaries (t : ProgAddr) : (s.jumpTo t).boundaries = s.boundaries := rfl
@[simp] theorem jumpTo_draws (t : ProgAddr) : (s.jumpTo t).draws = s.draws := rfl
@[simp] theorem jumpTo_params (t : ProgAddr) : (s.jumpTo t).params = s.params := rfl
@[simp] theorem jumpTo_reg (t : ProgAddr) (r : Reg) : (s.jumpTo t).reg r = s.reg r := rfl
@[simp] theorem jumpTo_pair (t : ProgAddr) (r : Reg) : (s.jumpTo t).pair r = s.pair r := rfl
@[simp] theorem jumpTo_pointer (t : ProgAddr) (p : Pointer) : (s.jumpTo t).pointer p = s.pointer p := rfl
@[simp] theorem jumpTo_flag (t : ProgAddr) (b : BitNo) : (s.jumpTo t).flag b = s.flag b := rfl
@[simp] theorem jumpTo_spAddr (t : ProgAddr) : (s.jumpTo t).spAddr = s.spAddr := rfl
@[simp] theorem jumpTo_sph (t : ProgAddr) : (s.jumpTo t).sph = s.sph := rfl
@[simp] theorem jumpTo_spl (t : ProgAddr) : (s.jumpTo t).spl = s.spl := rfl
@[simp] theorem jumpTo_flashByte (t : ProgAddr) (k : Nat) : (s.jumpTo t).flashByte k = s.flashByte k := rfl
@[simp] theorem jumpTo_progWord (t : ProgAddr) (w : ProgAddr) : (s.jumpTo t).progWord w = s.progWord w := rfl
@[simp] theorem jumpTo_interruptible (t : ProgAddr) : (s.jumpTo t).interruptible = s.interruptible := rfl

/-! ### setSreg -/
@[simp] theorem setSreg_regs (v : Byte) : (s.setSreg v).regs = s.regs := rfl
@[simp] theorem setSreg_pc (v : Byte) : (s.setSreg v).pc = s.pc := rfl
@[simp] theorem setSreg_sreg (v : Byte) : (s.setSreg v).sreg = v := rfl
@[simp] theorem setSreg_sp (v : Byte) : (s.setSreg v).sp = s.sp := rfl
@[simp] theorem setSreg_mcucr (v : Byte) : (s.setSreg v).mcucr = s.mcucr := rfl
@[simp] theorem setSreg_irqDelay (v : Byte) : (s.setSreg v).irqDelay = s.irqDelay := rfl
@[simp] theorem setSreg_sleeping (v : Byte) : (s.setSreg v).sleeping = s.sleeping := rfl
@[simp] theorem setSreg_stopped (v : Byte) : (s.setSreg v).stopped = s.stopped := rfl
@[simp] theorem setSreg_sram (v : Byte) : (s.setSreg v).sram = s.sram := rfl
@[simp] theorem setSreg_flash (v : Byte) : (s.setSreg v).flash = s.flash := rfl
@[simp] theorem setSreg_ioWritten (v : Byte) : (s.setSreg v).ioWritten = s.ioWritten := rfl
@[simp] theorem setSreg_events (v : Byte) : (s.setSreg v).events = s.events := rfl
@[simp] theorem setSreg_env (v : Byte) : (s.setSreg v).env = s.env := rfl
@[simp] theorem setSreg_envRest (v : Byte) : (s.setSreg v).envRest = s.envRest := rfl
@[simp] theorem setSreg_boundaries (v : Byte) : (s.setSreg v).boundaries = s.boundaries := rfl
@[simp] theorem setSreg_draws (v : Byte) : (s.setSreg v).draws = s.draws := rfl
@[simp] theorem setSreg_params (v : Byte) : (s.setSreg v).params = s.params := rfl
@[simp] theorem setSreg_reg (v : Byte) (r : Reg) : (s.setSreg v).reg r = s.reg r := rfl
@[simp] theorem setSreg_pair (v : Byte) (r : Reg) : (s.setSreg v).pair r = s.pair r := rfl
@[simp] theorem setSreg_pointer (v : Byte) (p : Pointer) : (s.setSreg v).pointer p = s.pointer p := rfl
@[simp] theorem setSreg_spAddr (v : Byte) : (s.setSreg v).spAddr = s.spAddr := rfl
@[simp] theorem setSreg_sph (v : Byte) : (s.setSreg v).sph = s.sph := rfl
@[simp] theorem setSreg_spl (v : Byte) : (s.setSreg v).spl = s.spl := rfl
@[simp] theorem setSreg_flashByte (v : Byte) (k : Nat) : (s.setSreg v).flashByte k = s.flashByte k := rfl
@[simp] theorem setSreg_progWord (v : Byte) (w : ProgAddr) : (s.setSreg v).progWord w = s.progWord w := rfl

/-! ### writeSreg -/
@[simp] theorem writeSreg_regs (v : Byte) : (s.writeSreg v).regs = s.regs := rfl
@[simp] theorem writeSreg_pc (v : Byte) : (s.writeSreg v).pc = s.pc := rfl
@[simp] theorem writeSreg_sreg (v : Byte) : (s.writeSreg v).sreg = v := rfl
@[simp] theorem writeSreg_sp (v : Byte) : (s.writeSreg v).sp = s.sp := rfl
@[simp] theorem writeSreg_mcucr (v : Byte) : (s.writeSreg v).mcucr = s.mcucr := rfl
@[simp] theorem writeSreg_irqDelay (v : Byte) : (s.writeSreg v).irqDelay = (s.irqDelay || (!bitOf s.sreg flagI && bitOf v flagI)) := rfl
@[simp] theorem writeSreg_sleeping (v : Byte) : (s.writeSreg v).sleeping = s.sleeping := rfl
@[simp] theorem writeSreg_stopped (v : Byte) : (s.writeSreg v).stopped = s.stopped := rfl
@[simp] theorem writeSreg_sram (v : Byte) : (s.writeSreg v).sram = s.sram := rfl
@[simp] theorem writeSreg_flash (v : Byte) : (s.writeSreg v).flash = s.flash := rfl
@[simp] theorem writeSreg_ioWritten (v : Byte) : (s.writeSreg v).ioWritten = s.ioWritten := rfl
@[simp] theorem writeSreg_events (v : Byte) : (s.writeSreg v).events = s.events := rfl
@[simp] theorem writeSreg_env (v : Byte) : (s.writeSreg v).env = s.env := rfl
@[simp] theorem writeSreg_envRest (v : Byte) : (s.writeSreg v).envRest = s.envRest := rfl
@[simp] theorem writeSreg_boundaries (v : Byte) : (s.writeSreg v).boundaries = s.boundaries := rfl
@[simp] theorem writeSreg_draws (v : Byte) : (s.writeSreg v).draws = s.draws := rfl
@[simp] theorem writeSreg_params (v : Byte) : (s.writeSreg v).params = s.params := rfl
@[simp] theorem writeSreg_reg (v : Byte) (r : Reg) : (s.writeSreg v).reg r = s.reg r := rfl
@[simp] theorem writeSreg_pair (v : Byte) (r : Reg) : (s.writeSreg v).pair r = s.pair r := rfl
@[simp] theorem writeSreg_pointer (v : Byte) (p : Pointer) : (s.writeSreg v).pointer p = s.pointer p := rfl
@[simp] theorem writeSreg_spAddr (v : Byte) : (s.writeSreg v).spAddr = s.spAddr := rfl
@[simp] theorem writeSreg_sph (v : Byte) : (s.writeSreg v).sph = s.sph := rfl
@[simp] theorem writeSreg_spl (v : Byte) : (s.writeSreg v).spl = s.spl := rfl
@[simp] theorem writeSreg_flashByte (v : Byte) (k : Nat) : (s.writeSreg v).flashByte k = s.flashByte k := rfl
@[simp] theorem writeSreg_progWord (v : Byte) (w : ProgAddr) : (s.writeSreg v).progWord w = s.progWord w := rfl

/-! ### pastInput -/
@[simp] theorem pastInput_regs : s.pastInput.regs = s.regs := rfl
@[simp] theorem pastInput_pc : s.pastInput.pc = s.pc := rfl
@[simp] theorem pastInput_sreg : s.pastInput.sreg = s.sreg := rfl
@[simp] theorem pastInput_sp : s.pastInput.sp = s.sp := rfl
@[simp] theorem pastInput_mcucr : s.pastInput.mcucr = s.mcucr := rfl
@[simp] theorem pastInput_irqDelay : s.pastInput.irqDelay = s.irqDelay := rfl
@[simp] theorem pastInput_sleeping : s.pastInput.sleeping = s.sleeping := rfl
@[simp] theorem pastInput_stopped : s.pastInput.stopped = s.stopped := rfl
@[simp] theorem pastInput_sram : s.pastInput.sram = s.sram := rfl
@[simp] theorem pastInput_flash : s.pastInput.flash = s.flash := rfl
@[simp] theorem pastInput_ioWritten : s.pastInput.ioWritten = s.ioWritten := rfl
@[simp] theorem pastInput_events : s.pastInput.events = s.events := rfl
@[simp] theorem pastInput_env : s.pastInput.env = s.env.tail := rfl
@[simp] theorem pastInput_envRest : s.pastInput.envRest = s.envRest := rfl
@[simp] theorem pastInput_boundaries : s.pastInput.boundaries = s.boundaries + 1 := rfl
@[simp] theorem pastInput_draws : s.pastInput.draws = s.draws := rfl
@[simp] theorem pastInput_params : s.pastInput.params = s.params := rfl
@[simp] theorem pastInput_reg (r : Reg) : s.pastInput.reg r = s.reg r := rfl
@[simp] theorem pastInput_pair (r : Reg) : s.pastInput.pair r = s.pair r := rfl
@[simp] theorem pastInput_pointer (p : Pointer) : s.pastInput.pointer p = s.pointer p := rfl
@[simp] theorem pastInput_flag (b : BitNo) : s.pastInput.flag b = s.flag b := rfl
@[simp] theorem pastInput_spAddr : s.pastInput.spAddr = s.spAddr := rfl
@[simp] theorem pastInput_sph : s.pastInput.sph = s.sph := rfl
@[simp] theorem pastInput_spl : s.pastInput.spl = s.spl := rfl
@[simp] theorem pastInput_flashByte (k : Nat) : s.pastInput.flashByte k = s.flashByte k := rfl
@[simp] theorem pastInput_progWord (w : ProgAddr) : s.pastInput.progWord w = s.progWord w := rfl
@[simp] theorem pastInput_interruptible : s.pastInput.interruptible = s.interruptible := rfl

/-! ### beforeInstruction -/
@[simp] theorem beforeInstruction_regs : s.beforeInstruction.regs = s.regs := rfl
@[simp] theorem beforeInstruction_pc : s.beforeInstruction.pc = s.pc := rfl
@[simp] theorem beforeInstruction_sreg : s.beforeInstruction.sreg = s.sreg := rfl
@[simp] theorem beforeInstruction_sp : s.beforeInstruction.sp = s.sp := rfl
@[simp] theorem beforeInstruction_mcucr : s.beforeInstruction.mcucr = s.mcucr := rfl
@[simp] theorem beforeInstruction_irqDelay : s.beforeInstruction.irqDelay = false := rfl
@[simp] theorem beforeInstruction_sleeping : s.beforeInstruction.sleeping = s.sleeping := rfl
@[simp] theorem beforeInstruction_stopped : s.beforeInstruction.stopped = s.stopped := rfl
@[simp] theorem beforeInstruction_sram : s.beforeInstruction.sram = s.sram := rfl
@[simp] theorem beforeInstruction_flash : s.beforeInstruction.flash = s.flash := rfl
@[simp] theorem beforeInstruction_ioWritten : s.beforeInstruction.ioWritten = s.ioWritten := rfl
@[simp] theorem beforeInstruction_events : s.beforeInstruction.events = s.events := rfl
@[simp] theorem beforeInstruction_env : s.beforeInstruction.env = s.env := rfl
@[simp] theorem beforeInstruction_envRest : s.beforeInstruction.envRest = s.envRest := rfl
@[simp] theorem beforeInstruction_boundaries : s.beforeInstruction.boundaries = s.boundaries := rfl
@[simp] theorem beforeInstruction_draws : s.beforeInstruction.draws = s.draws := rfl
@[simp] theorem beforeInstruction_params : s.beforeInstruction.params = s.params := rfl
@[simp] theorem beforeInstruction_reg (r : Reg) : s.beforeInstruction.reg r = s.reg r := rfl
@[simp] theorem beforeInstruction_pair (r : Reg) : s.beforeInstruction.pair r = s.pair r := rfl
@[simp] theorem beforeInstruction_pointer (p : Pointer) : s.beforeInstruction.pointer p = s.pointer p := rfl
@[simp] theorem beforeInstruction_flag (b : BitNo) : s.beforeInstruction.flag b = s.flag b := rfl
@[simp] theorem beforeInstruction_spAddr : s.beforeInstruction.spAddr = s.spAddr := rfl
@[simp] theorem beforeInstruction_sph : s.beforeInstruction.sph = s.sph := rfl
@[simp] theorem beforeInstruction_spl : s.beforeInstruction.spl = s.spl := rfl
@[simp] theorem beforeInstruction_flashByte (k : Nat) : s.beforeInstruction.flashByte k = s.flashByte k := rfl
@[simp] theorem beforeInstruction_progWord (w : ProgAddr) : s.beforeInstruction.progWord w = s.progWord w := rfl

/-! ### deviceWrite -/
@[simp] theorem deviceWrite_regs (a : IoAddr) (v : Byte) : (deviceWrite s a v).regs = s.regs := rfl
@[simp] theorem deviceWrite_pc (a : IoAddr) (v : Byte) : (deviceWrite s a v).pc = s.pc := rfl
@[simp] theorem deviceWrite_sreg (a : IoAddr) (v : Byte) : (deviceWrite s a v).sreg = s.sreg := rfl
@[simp] theorem deviceWrite_sp (a : IoAddr) (v : Byte) : (deviceWrite s a v).sp = s.sp := rfl
@[simp] theorem deviceWrite_mcucr (a : IoAddr) (v : Byte) : (deviceWrite s a v).mcucr = s.mcucr := rfl
@[simp] theorem deviceWrite_irqDelay (a : IoAddr) (v : Byte) : (deviceWrite s a v).irqDelay = s.irqDelay := rfl
@[simp] theorem deviceWrite_sleeping (a : IoAddr) (v : Byte) : (deviceWrite s a v).sleeping = s.sleeping := rfl
@[simp] theorem deviceWrite_stopped (a : IoAddr) (v : Byte) : (deviceWrite s a v).stopped = s.stopped := rfl
@[simp] theorem deviceWrite_sram (a : IoAddr) (v : Byte) : (deviceWrite s a v).sram = s.sram := rfl
@[simp] theorem deviceWrite_flash (a : IoAddr) (v : Byte) : (deviceWrite s a v).flash = s.flash := rfl
@[simp] theorem deviceWrite_ioWritten (a : IoAddr) (v : Byte) : (deviceWrite s a v).ioWritten = Memory.write .ioWritten s.ioWritten a.toNat v := rfl
@[simp] theorem deviceWrite_events (a : IoAddr) (v : Byte) : (deviceWrite s a v).events = s.events ++ [.deviceWrite a v] := rfl
@[simp] theorem deviceWrite_env (a : IoAddr) (v : Byte) : (deviceWrite s a v).env = s.env := rfl
@[simp] theorem deviceWrite_envRest (a : IoAddr) (v : Byte) : (deviceWrite s a v).envRest = s.envRest := rfl
@[simp] theorem deviceWrite_boundaries (a : IoAddr) (v : Byte) : (deviceWrite s a v).boundaries = s.boundaries := rfl
@[simp] theorem deviceWrite_draws (a : IoAddr) (v : Byte) : (deviceWrite s a v).draws = s.draws := rfl
@[simp] theorem deviceWrite_params (a : IoAddr) (v : Byte) : (deviceWrite s a v).params = s.params := rfl
@[simp] theorem deviceWrite_reg (a : IoAddr) (v : Byte) (r : Reg) : (deviceWrite s a v).reg r = s.reg r := rfl
@[simp] theorem deviceWrite_pair (a : IoAddr) (v : Byte) (r : Reg) : (deviceWrite s a v).pair r = s.pair r := rfl
@[simp] theorem deviceWrite_pointer (a : IoAddr) (v : Byte) (p : Pointer) : (deviceWrite s a v).pointer p = s.pointer p := rfl
@[simp] theorem deviceWrite_flag (a : IoAddr) (v : Byte) (b : BitNo) : (deviceWrite s a v).flag b = s.flag b := rfl
@[simp] theorem deviceWrite_spAddr (a : IoAddr) (v : Byte) : (deviceWrite s a v).spAddr = s.spAddr := rfl
@[simp] theorem deviceWrite_sph (a : IoAddr) (v : Byte) : (deviceWrite s a v).sph = s.sph := rfl
@[simp] theorem deviceWrite_spl (a : IoAddr) (v : Byte) : (deviceWrite s a v).spl = s.spl := rfl
@[simp] theorem deviceWrite_flashByte (a : IoAddr) (v : Byte) (k : Nat) : (deviceWrite s a v).flashByte k = s.flashByte k := rfl
@[simp] theorem deviceWrite_progWord (a : IoAddr) (v : Byte) (w : ProgAddr) : (deviceWrite s a v).progWord w = s.progWord w := rfl
@[simp] theorem deviceWrite_interruptible (a : IoAddr) (v : Byte) : (deviceWrite s a v).interruptible = s.interruptible := rfl

/-! ### deviceRead -/
@[simp] theorem deviceRead_regs (a : IoAddr) : (deviceRead s a).2.regs = s.regs := rfl
@[simp] theorem deviceRead_pc (a : IoAddr) : (deviceRead s a).2.pc = s.pc := rfl
@[simp] theorem deviceRead_sreg (a : IoAddr) : (deviceRead s a).2.sreg = s.sreg := rfl
@[simp] theorem deviceRead_sp (a : IoAddr) : (deviceRead s a).2.sp = s.sp := rfl
@[simp] theorem deviceRead_mcucr (a : IoAddr) : (deviceRead s a).2.mcucr = s.mcucr := rfl
@[simp] theorem deviceRead_irqDelay (a : IoAddr) : (deviceRead s a).2.irqDelay = s.irqDelay := rfl
@[simp] theorem deviceRead_sleeping (a : IoAddr) : (deviceRead s a).2.sleeping = s.sleeping := rfl
@[simp] theorem deviceRead_stopped (a : IoAddr) : (deviceRead s a).2.stopped = s.stopped := rfl
@[simp] theorem deviceRead_sram (a : IoAddr) : (deviceRead s a).2.sram = s.sram := rfl
@[simp] theorem deviceRead_flash (a : IoAddr) : (deviceRead s a).2.flash = s.flash := rfl
@[simp] theorem deviceRead_ioWritten (a : IoAddr) : (deviceRead s a).2.ioWritten = s.ioWritten := rfl
@[simp] theorem deviceRead_events (a : IoAddr) : (deviceRead s a).2.events = s.events := rfl
@[simp] theorem deviceRead_env (a : IoAddr) : (deviceRead s a).2.env = s.env := rfl
@[simp] theorem deviceRead_envRest (a : IoAddr) : (deviceRead s a).2.envRest = s.envRest := rfl
@[simp] theorem deviceRead_boundaries (a : IoAddr) : (deviceRead s a).2.boundaries = s.boundaries := rfl
@[simp] theorem deviceRead_draws (a : IoAddr) : (deviceRead s a).2.draws = s.draws + 1 := rfl
@[simp] theorem deviceRead_params (a : IoAddr) : (deviceRead s a).2.params = s.params := rfl
@[simp] theorem deviceRead_reg (a : IoAddr) (r : Reg) : (deviceRead s a).2.reg r = s.reg r := rfl
@[simp] theorem deviceRead_pair (a : IoAddr) (r : Reg) : (deviceRead s a).2.pair r = s.pair r := rfl
@[simp] theorem deviceRead_pointer (a : IoAddr) (p : Pointer) : (deviceRead s a).2.pointer p = s.pointer p := rfl
@[simp] theorem deviceRead_flag (a : IoAddr) (b : BitNo) : (deviceRead s a).2.flag b = s.flag b := rfl
@[simp] theorem deviceRead_spAddr (a : IoAddr) : (deviceRead s a).2.spAddr = s.spAddr := rfl
@[simp] theorem deviceRead_sph (a : IoAddr) : (deviceRead s a).2.sph = s.sph := rfl
@[simp] theorem deviceRead_spl (a : IoAddr) : (deviceRead s a).2.spl = s.spl := rfl
@[simp] theorem deviceRead_flashByte (a : IoAddr) (k : Nat) : (deviceRead s a).2.flashByte k = s.flashByte k := rfl
@[simp] theorem deviceRead_progWord (a : IoAddr) (w : ProgAddr) : (deviceRead s a).2.progWord w = s.progWord w := rfl
@[simp] theorem deviceRead_interruptible (a : IoAddr) : (deviceRead s a).2.interruptible = s.interruptible := rfl

/-! ### Values -/
@[simp] theorem deviceRead_value (a : IoAddr) : (deviceRead s a).1 = Config.deviceDraw s.draws a := rfl

/-- A register read after a register write. -/
@[simp] theorem setReg_reg (d r : Reg) (v : Byte) :
    (s.setReg d v).reg r = if r = d then v else s.reg r := by
  simp only [State.setReg, State.reg, Fin.getElem_fin, Vector.getElem_set, Fin.ext_iff]
  simp only [eq_comm]

/-- A register read after a write of a pair. -/
@[simp] theorem setPair_reg (d r : Reg) (v : BitVec 16) :
    (s.setPair d v).reg r =
      if r = d + 1 then v.extractLsb' 8 8 else if r = d then v.extractLsb' 0 8 else s.reg r := by
  simp [State.setPair]

/-- A pair read after it was written. -/
theorem setPair_pair (d : Reg) (v : BitVec 16) : (s.setPair d v).pair d = v := by
  have h : d ≠ d + 1 := by revert d; decide
  simp only [State.pair, setPair_reg, if_true, h, if_false]
  ext i hi
  simp only [BitVec.getElem_append, BitVec.getElem_extractLsb']
  split
  · simp [BitVec.getLsbD_eq_getElem, *]
  · rw [show 8 + (i - 8) = i by omega, BitVec.getLsbD_eq_getElem]

/-- Two register files that agree on every register are equal. -/
theorem regs_ext {a b : Vector Byte 32} (h : ∀ r : Reg, a[r] = b[r]) : a = b :=
  Vector.ext fun i hi => h ⟨i, hi⟩

end Sys2Proof.Machine
end

