-- ==== Sys2Proof/Laws/Ops.lean ====
section
/-! SUPPORT. For each shared operation, once, everything it can do: a proof about an instruction
cites these and unfolds no operation. -/
namespace Sys2Proof.Machine

/-! ## Sequencing -/

/-- A sequence that goes on: its first operation went on, and its second too. -/
theorem bind_eq_next {α β : Type} {x : Res α} {f : α → Res β} {b : β} :
    x.bind f = .next b ↔ ∃ a, x = .next a ∧ f a = .next b := by
  cases x <;> simp [Res.bind]

/-- A sequence that faults: in its first operation or in its second. -/
theorem bind_eq_fault {α β : Type} {x : Res α} {f : α → Res β} {e : Fault} :
    x.bind f = .fault e ↔ x = .fault e ∨ ∃ a, x = .next a ∧ f a = .fault e := by
  cases x <;> simp [Res.bind]

/-- A sequence that refuses: in its first operation or in its second. -/
theorem bind_eq_refused {α β : Type} {x : Res α} {f : α → Res β} {e : Refusal} :
    x.bind f = .refused e ↔ x = .refused e ∨ ∃ a, x = .next a ∧ f a = .refused e := by
  cases x <;> simp [Res.bind]

@[simp] theorem bind_next {α β : Type} (a : α) (f : α → Res β) :
    Res.bind (.next a : Res α) f = f a := rfl
@[simp] theorem bind_fault {α β : Type} (e : Fault) (f : α → Res β) :
    Res.bind (.fault e : Res α) f = .fault e := rfl
@[simp] theorem bind_refused {α β : Type} (e : Refusal) (f : α → Res β) :
    Res.bind (.refused e : Res α) f = .refused e := rfl

/-! ## The data space by ranges (20_memory.md R43) -/

theorem dataPlace_register {a : DataAddr} (h : a.toNat < 32) :
    dataPlace a = .register ⟨a.toNat, h⟩ := by
  have h1 : a < ioBase := by simp only [BitVec.lt_def, ioBase]; exact h
  simp only [dataPlace, h1, if_true, DataPlace.register.injEq, Fin.ext_iff]
  simp only [BitVec.extractLsb', BitVec.toFin_ofNat, Nat.shiftRight_zero, Fin.val_ofNat]
  exact Nat.mod_eq_of_lt h

theorem dataPlace_io {a : DataAddr} (h1 : 32 ≤ a.toNat) (h2 : a.toNat < 96) :
    dataPlace a = .io (BitVec.ofNat 6 (a.toNat - 32)) := by
  have l1 : ¬ a < ioBase := by simp only [BitVec.lt_def, ioBase]; simpa using h1
  have l2 : a < sramStart := by simp only [BitVec.lt_def, sramStart]; simpa using h2
  simp only [dataPlace, l1, l2, if_true, if_false, DataPlace.io.injEq]
  apply BitVec.eq_of_toNat_eq
  simp only [BitVec.extractLsb', BitVec.toNat_ofNat, Nat.shiftRight_zero, BitVec.toNat_sub, ioBase]
  have := a.isLt
  norm_num
  omega

theorem dataPlace_sram {a : DataAddr} (h1 : 96 ≤ a.toNat) (h2 : a.toNat ≤ 0x85F) :
    dataPlace a = .sram := by
  have l1 : ¬ a < ioBase := by simp only [BitVec.lt_def, ioBase]; norm_num; omega
  have l2 : ¬ a < sramStart := by simp only [BitVec.lt_def, sramStart]; norm_num; omega
  have l3 : a ≤ ramEnd := by simp only [BitVec.le_def, ramEnd]; norm_num; omega
  simp [dataPlace, l1, l2, l3]

theorem dataPlace_nothing {a : DataAddr} (h : 0x85F < a.toNat) : dataPlace a = .nothing := by
  have l1 : ¬ a < ioBase := by simp only [BitVec.lt_def, ioBase]; norm_num; omega
  have l2 : ¬ a < sramStart := by simp only [BitVec.lt_def, sramStart]; norm_num; omega
  have l3 : ¬ a ≤ ramEnd := by simp only [BitVec.le_def, ramEnd]; norm_num; omega
  simp [dataPlace, l1, l2, l3]

/-- The place a data address leads to, with the range it lies in. -/
theorem dataPlace_cases (a : DataAddr) :
    (∃ h : a.toNat < 32, dataPlace a = .register ⟨a.toNat, h⟩) ∨
    (32 ≤ a.toNat ∧ a.toNat < 96 ∧ dataPlace a = .io (BitVec.ofNat 6 (a.toNat - 32))) ∨
    (96 ≤ a.toNat ∧ a.toNat ≤ 0x85F ∧ dataPlace a = .sram) ∨
    (0x85F < a.toNat ∧ dataPlace a = .nothing) := by
  rcases Nat.lt_or_ge a.toNat 32 with h | h
  · exact .inl ⟨h, dataPlace_register h⟩
  · rcases Nat.lt_or_ge a.toNat 96 with h2 | h2
    · exact .inr (.inl ⟨h, h2, dataPlace_io h h2⟩)
    · rcases Nat.lt_or_ge 0x85F a.toNat with h3 | h3
      · exact .inr (.inr (.inr ⟨h3, dataPlace_nothing h3⟩))
      · exact .inr (.inr (.inl ⟨h2, h3, dataPlace_sram h2 h3⟩))

/-! ## I/O space -/

/-- Everything a read of an I/O register can be. -/
theorem ioRead_cases (s : State) (a : IoAddr) :
    (a = 0x3F#6 ∧ ioRead s a = (s.sreg, s)) ∨ (a = 0x3E#6 ∧ ioRead s a = (s.sph, s)) ∨
    (a = 0x3D#6 ∧ ioRead s a = (s.spl, s)) ∨ (a = 0x35#6 ∧ ioRead s a = (s.mcucr, s)) ∨
    (coreOwned a = false ∧ ioRead s a = deviceRead s a) := by
  unfold ioRead coreOwned
  by_cases h1 : a = 0x3F#6
  · simp [h1]
  · by_cases h2 : a = 0x3E#6
    · simp [h2]
    · by_cases h3 : a = 0x3D#6
      · simp [h3]
      · by_cases h4 : a = 0x35#6 <;> simp [h1, h2, h3, h4]

/-- A read of an I/O register changes the draws only. -/
theorem ioRead_state (s : State) (a : IoAddr) :
    (ioRead s a).2 = s ∨ (ioRead s a).2 = { s with draws := s.draws + 1 } := by
  rcases ioRead_cases s a with ⟨_, h⟩ | ⟨_, h⟩ | ⟨_, h⟩ | ⟨_, h⟩ | ⟨_, h⟩ <;> simp [h, deviceRead]

/-- Everything a write of an I/O register can do when it goes on. -/
theorem ioWrite_next {s t : State} {a : IoAddr} {v : Byte} (h : ioWrite s a v = .next t) :
    (a = 0x3F#6 ∧ t = s.writeSreg v) ∨
    (a = 0x3E#6 ∧ t = { s with sp := v.extractLsb' 0 4 ++ s.sp.extractLsb' 0 8 }) ∨
    (a = 0x3D#6 ∧ t = { s with sp := s.sp.extractLsb' 8 4 ++ v }) ∨
    (a = 0x35#6 ∧ t = { s with mcucr := v }) ∨
    (coreOwned a = false ∧ guardedWrite a v = false ∧ t = deviceWrite s a v) := by
  unfold ioWrite at h
  split at h
  · simp_all
  · split at h
    · simp_all
    · split at h
      · simp_all
      · split at h
        · simp_all
        · split at h
          · simp at h
          · split at h
            · simp at h
            · simp only [Host.Outcome.next.injEq] at h
              refine .inr (.inr (.inr (.inr ⟨by simp_all [coreOwned], ?_, h.symm⟩)))
              rename_i g1 g2
              simp only [guardedWrite, Bool.or_eq_false_iff, Bool.and_eq_false_iff]
              constructor
              · by_cases e : a = 0x37#6
                · exact .inr (by simpa [e] using g1)
                · exact .inl (by simpa using e)
              · by_cases e : a = 0x3B#6
                · exact .inr (by simpa [e] using g2)
                · exact .inl (by simpa using e)

/-- A write of an I/O register faults never. -/
theorem ioWrite_fault (s : State) (a : IoAddr) (v : Byte) (e : Fault) : ioWrite s a v ≠ .fault e := by
  unfold ioWrite
  repeat' split
  all_goals simp

/-- A device register's write goes on unless R49 of 20_memory.md refuses it. -/
theorem ioWrite_device (s : State) {a : IoAddr} {v : Byte} (h : coreOwned a = false)
    (g : guardedWrite a v = false) : ioWrite s a v = .next (deviceWrite s a v) := by
  simp only [coreOwned, Bool.or_eq_false_iff, beq_eq_false_iff_ne] at h
  simp only [guardedWrite, Bool.or_eq_false_iff, Bool.and_eq_false_iff, beq_eq_false_iff_ne] at g
  have g1 : ¬ (a = 0x37#6 ∧ bitOf v 0 = true) := by
    rintro ⟨h1, h2⟩; rcases g.1 with g | g <;> simp_all
  have g2 : ¬ (a = 0x3B#6 ∧ (bitOf v 1 = true ∨ bitOf v 0 = true)) := by
    rintro ⟨h1, h2⟩; rcases g.2 with g | g <;> simp_all
  simp only [ioWrite, h, g1, g2, if_false]

/-! ## Data space -/

/-- Everything a read of a data address can be when it goes on. -/
theorem memRead_next {s t : State} {a : DataAddr} {v : Byte} (h : memRead s a = .next (v, t)) :
    (∃ r : Reg, a.toNat = r.val ∧ v = s.reg r ∧ t = s) ∨
    (∃ p : IoAddr, a.toNat = p.toNat + 32 ∧ (v, t) = ioRead s p) ∨
    (96 ≤ a.toNat ∧ a.toNat ≤ 0x85F ∧ Memory.read .sram s.sram a.toNat = some v ∧ t = s) := by
  unfold memRead at h
  rcases dataPlace_cases a with ⟨h1, e⟩ | ⟨h1, h2, e⟩ | ⟨h1, h2, e⟩ | ⟨h1, e⟩
  · simp only [e, Host.Outcome.next.injEq, Prod.mk.injEq] at h
    exact .inl ⟨_, rfl, h.1.symm, h.2.symm⟩
  · simp only [e, Host.Outcome.next.injEq] at h
    refine .inr (.inl ⟨_, ?_, h.symm⟩)
    simp only [BitVec.toNat_ofNat]; omega
  · simp only [e] at h
    split at h
    · simp only [Host.Outcome.next.injEq, Prod.mk.injEq] at h
      rename_i w hw
      exact .inr (.inr ⟨h1, h2, by rw [hw, h.1], h.2.symm⟩)
    · simp at h
  · simp [e] at h

/-- A read of a data address changes the draws only. -/
theorem memRead_state {s : State} {a : DataAddr} {p : Byte × State} (h : memRead s a = .next p) :
    p.2 = s ∨ p.2 = { s with draws := s.draws + 1 } := by
  obtain ⟨v, t⟩ := p
  rcases memRead_next h with ⟨_, _, _, e⟩ | ⟨q, _, e⟩ | ⟨_, _, _, e⟩
  · exact .inl e
  · have := ioRead_state s q
    rw [← e] at this
    exact this
  · exact .inl e

/-- Everything a write of a data address can do when it goes on. -/
theorem memWrite_next {s t : State} {a : DataAddr} {v : Byte} (h : memWrite s a v = .next t) :
    (∃ r : Reg, a.toNat = r.val ∧ t = s.setReg r v) ∨
    (∃ p : IoAddr, a.toNat = p.toNat + 32 ∧ ioWrite s p v = .next t) ∨
    (96 ≤ a.toNat ∧ a.toNat ≤ 0x85F ∧
      t = { s with sram := Memory.write .sram s.sram a.toNat v }) := by
  unfold memWrite at h
  rcases dataPlace_cases a with ⟨h1, e⟩ | ⟨h1, h2, e⟩ | ⟨h1, h2, e⟩ | ⟨h1, e⟩
  · simp only [e, Host.Outcome.next.injEq] at h
    exact .inl ⟨_, rfl, h.symm⟩
  · simp only [e] at h
    refine .inr (.inl ⟨_, ?_, h⟩)
    simp only [BitVec.toNat_ofNat]; omega
  · simp only [e, Host.Outcome.next.injEq] at h
    exact .inr (.inr ⟨h1, h2, h.symm⟩)
  · simp [e] at h

/-- A write into SRAM goes on. -/
theorem memWrite_sram (s : State) {a : DataAddr} (v : Byte) (h1 : 96 ≤ a.toNat)
    (h2 : a.toNat ≤ 0x85F) :
    memWrite s a v = .next { s with sram := Memory.write .sram s.sram a.toNat v } := by
  simp [memWrite, dataPlace_sram h1 h2]

/-- A read of a listed SRAM byte goes on. -/
theorem memRead_sram (s : State) {a : DataAddr} {v : Byte} (h1 : 96 ≤ a.toNat)
    (h2 : a.toNat ≤ 0x85F) (h : Memory.read .sram s.sram a.toNat = some v) :
    memRead s a = .next (v, s) := by
  simp [memRead, dataPlace_sram h1 h2, h]

/-- What no write of a data address changes. -/
theorem memWrite_keeps {s t : State} {a : DataAddr} {v : Byte} (h : memWrite s a v = .next t) :
    t.pc = s.pc ∧ t.sleeping = s.sleeping ∧ t.stopped = s.stopped ∧ t.flash = s.flash ∧
    t.env = s.env ∧ t.envRest = s.envRest ∧ t.boundaries = s.boundaries ∧ t.draws = s.draws ∧
    t.params = s.params := by
  rcases memWrite_next h with ⟨r, _, rfl⟩ | ⟨p, _, h⟩ | ⟨_, _, rfl⟩
  · simp
  · rcases ioWrite_next h with ⟨_, rfl⟩ | ⟨_, rfl⟩ | ⟨_, rfl⟩ | ⟨_, rfl⟩ | ⟨_, _, rfl⟩ <;> simp
  · simp

/-! ## Stack -/

/-- Everything a push can do when it goes on. -/
theorem push8_next {s t : State} {v : Byte} (h : push8 s v = .next t) :
    s.sp ≠ 0x05D#12 ∧ s.sp ≠ 0x05E#12 ∧
      ∃ u, memWrite s s.spAddr v = .next u ∧ t = { u with sp := u.sp - 1#12 } := by
  unfold push8 at h
  split at h
  · simp at h
  · rename_i g
    rw [bind_eq_next] at h
    obtain ⟨u, h1, h2⟩ := h
    rw [not_or] at g
    exact ⟨g.1, g.2, u, h1, by simpa using h2.symm⟩

/-- Everything a pop can do when it goes on. -/
theorem pop8_next {s : State} {p : Byte × State} (h : pop8 s = .next p) :
    memRead { s with sp := s.sp + 1#12 } ((s.sp + 1#12).setWidth 16) = .next p := h

/-- Everything a push of a return address can do when it goes on. -/
theorem pushPC_next {s t : State} {a : ProgAddr} (h : pushPC s a = .next t) :
    ∃ u, push8 s ((a.setWidth 16).extractLsb' 0 8) = .next u ∧
      push8 u ((a.setWidth 16).extractLsb' 8 8) = .next t := by
  simpa only [pushPC, bind_eq_next] using h

/-- Everything a pop of a return address can do when it goes on. -/
theorem popPC_next {s : State} {p : ProgAddr × State} (h : popPC s = .next p) :
    ∃ hi lo : Byte × State, pop8 s = .next hi ∧ pop8 hi.2 = .next lo ∧
      p = ((hi.1 ++ lo.1).setWidth 14, lo.2) := by
  simp only [popPC, bind_eq_next] at h
  obtain ⟨hi, h1, lo, h2, h3⟩ := h
  exact ⟨hi, lo, h1, h2, by simpa using h3.symm⟩

/-- What no push changes. -/
theorem push8_keeps {s t : State} {v : Byte} (h : push8 s v = .next t) :
    t.pc = s.pc ∧ t.sleeping = s.sleeping ∧ t.stopped = s.stopped ∧ t.flash = s.flash ∧
    t.env = s.env ∧ t.envRest = s.envRest ∧ t.boundaries = s.boundaries ∧ t.draws = s.draws ∧
    t.params = s.params := by
  obtain ⟨_, _, u, hu, rfl⟩ := push8_next h
  simpa using memWrite_keeps hu

/-- What no push of a return address changes. -/
theorem pushPC_keeps {s t : State} {a : ProgAddr} (h : pushPC s a = .next t) :
    t.pc = s.pc ∧ t.sleeping = s.sleeping ∧ t.stopped = s.stopped ∧ t.flash = s.flash ∧
    t.env = s.env ∧ t.envRest = s.envRest ∧ t.boundaries = s.boundaries ∧ t.draws = s.draws ∧
    t.params = s.params := by
  obtain ⟨u, h1, h2⟩ := pushPC_next h
  have k1 := push8_keeps h1
  have k2 := push8_keeps h2
  simp_all

/-- A push into SRAM goes on. -/
theorem push8_sram (s : State) (v : Byte) (h1 : 96 ≤ s.sp.toNat) (h2 : s.sp.toNat ≤ 0x85F) :
    push8 s v =
      .next { s with sram := Memory.write .sram s.sram s.sp.toNat v, sp := s.sp - 1#12 } := by
  have e : s.spAddr.toNat = s.sp.toNat := by
    simp only [State.spAddr, BitVec.toNat_setWidth]; have := s.sp.isLt; omega
  have g : ¬ (s.sp = 0x05D#12 ∨ s.sp = 0x05E#12) := by
    rintro (h | h) <;> simp [h] at h1
  simp only [push8, g, if_false, memWrite_sram s v (by rw [e]; exact h1) (by rw [e]; exact h2), e,
    bind_next]

/-! ## Pointer forms, targets, boundaries -/

/-- A guarded form that goes on met neither ground of R134 of 40_data_transfer.md. -/
theorem guardPointer_next {p : Pointer} {r : Reg} {a : DataAddr} {x : Res State} {t : State}
    (h : guardPointer p r a x = .next t) :
    overlaps p r = false ∧ isOwnAddress p a = false ∧ x = .next t := by
  unfold guardPointer at h
  split at h
  · simp at h
  · split at h
    · simp at h
    · simp_all

/-- An absolute target that is accepted lies in program memory. -/
theorem jumpTarget_next {k : Nat} {t : ProgAddr} :
    jumpTarget k = .next t ↔ k < 16384 ∧ t = BitVec.ofNat 14 k := by
  unfold jumpTarget flashWords
  split
  · simp; omega
  · simp only [Host.Outcome.next.injEq, eq_comm (a := t), iff_and_self]; omega

theorem byte_of_append_high (a b : Byte) : (a ++ b).extractLsb' 8 8 = a := by
  apply BitVec.eq_of_getLsbD_eq
  intro i hi
  rw [BitVec.getLsbD_extractLsb', BitVec.getLsbD_append]
  simp [hi]

theorem byte_of_append_low (a b : Byte) : (a ++ b).extractLsb' 0 8 = b := by
  apply BitVec.eq_of_getLsbD_eq
  intro i hi
  rw [BitVec.getLsbD_extractLsb', BitVec.getLsbD_append]
  simp [hi]

/-- Everything a byte read of program memory can be when it goes on. -/
theorem progByte_next {s : State} {b : BitVec 16} {v : Byte} (h : progByte s b = .next v) :
    b.toNat < 32768 ∧ v = s.flashByte b.toNat := by
  unfold progByte flashWords at h
  split at h
  · simp at h
  · rename_i g
    simp only [Host.Outcome.next.injEq] at h
    refine ⟨by omega, ?_⟩
    subst h
    have hb := b.isLt
    have e : (BitVec.ofNat 14 (b.toNat / 2)).toNat = b.toNat / 2 := by
      simp only [BitVec.toNat_ofNat]; omega
    have l0 : b.getLsbD 0 = decide (b.toNat % 2 = 1) := by
      rw [BitVec.getLsbD, Nat.testBit_zero]
    simp only [State.progWord, e, l0]
    by_cases o : b.toNat % 2 = 1
    · rw [if_pos (by simpa using o), show 2 * (b.toNat / 2) + 1 = b.toNat by omega]
      exact byte_of_append_high _ _
    · rw [if_neg (by simpa using o), show 2 * (b.toNat / 2) = b.toNat by omega]
      exact byte_of_append_low _ _

/-- Everything a fetch can be when it goes on. -/
theorem fetch_next {s : State} {i : Instr} (h : fetch s = .next i) :
    decodeWords (s.progWord s.pc) (s.progWord (s.pc + 1#14)) = .ok i := by
  unfold fetch at h
  split at h <;> simp_all

/-- Everything a boundary can do when it goes on. -/
theorem atBoundary_next {run : State → Res State} {s t : State} (h : atBoundary run s = .next t) :
    (boundaryEvent (envInput s) s = .reset ∧ t = warmReset s.pastInput) ∨
    (boundaryEvent (envInput s) s = .stopped ∧ t = s.pastInput) ∨
    (∃ n, boundaryEvent (envInput s) s = .interrupt n ∧ interruptEntry s.pastInput n = .next t) ∨
    (boundaryEvent (envInput s) s = .asleep ∧ t = s.pastInput) ∨
    (boundaryEvent (envInput s) s = .instruction ∧
      run s.pastInput.beforeInstruction = .next t) := by
  unfold atBoundary at h
  split at h <;> simp_all

/-- What each event of a boundary means. -/
theorem boundaryEvent_cases (e : EnvInput) (s : State) :
    (e.reset = true ∧ boundaryEvent e s = .reset) ∨
    (e.reset = false ∧ s.stopped = true ∧ boundaryEvent e s = .stopped) ∨
    (∃ n, e.reset = false ∧ s.stopped = false ∧ s.interruptible = true ∧
      mostUrgent e.requests = some n ∧ boundaryEvent e s = .interrupt n) ∨
    (e.reset = false ∧ s.stopped = false ∧
      (s.interruptible = false ∨ mostUrgent e.requests = none) ∧
      ((s.sleeping = true ∧ boundaryEvent e s = .asleep) ∨
        (s.sleeping = false ∧ boundaryEvent e s = .instruction))) := by
  unfold boundaryEvent
  cases e.reset <;> cases s.stopped <;> cases s.interruptible <;> cases s.sleeping <;>
    cases mostUrgent e.requests <;> simp

end Sys2Proof.Machine
end

