-- ==== Sys2Proof/Laws/Claims.lean ====
section
/-! SUPPORT. The operations of the machine in the vocabulary of the statements: each shared
operation as the table or formula of Claims.lean that it computes. -/
namespace Sys2Proof.Machine
open Sys2Proof.Claims

theorem afterInput_eq (s : State) : afterInput s = s.pastInput := rfl

/-! ## Flags -/

/-- The bits of SREG from its eight flags (10_state.md R16). -/
theorem bitOf_sregOf (i t h s v n z c : Bool) (b : BitNo) : bitOf (sregOf i t h s v n z c) b =
    if b = 0 then c else if b = 1 then z else if b = 2 then n else if b = 3 then v
    else if b = 4 then s else if b = 5 then h else if b = 6 then t else i := by
  revert i t h s v n z c b
  decide +kernel

theorem bne_eq_exclusive_or (a b : Bool) : (a != b) = (a ^^ b) := by cases a <;> cases b <;> rfl

theorem writeHSVNZC_eq (sreg : Byte) (x : Alu) (hs : x.s = (x.n ^^ x.v)) :
    writeHSVNZC sreg x = newHSVNZC sreg x.h x.v x.n x.z x.c := by
  apply byte_ext; intro b
  rw [bitOf_writeHSVNZC, newHSVNZC, bitOf_sregOf, hs]
  fin_cases b <;> simp [flagC, flagZ, flagN, flagV, flagS, flagH, bitOf]

theorem writeSVNZC_eq (sreg : Byte) (v n z c : Bool) :
    writeSVNZC sreg v n z c = newSVNZC sreg v n z c := by
  apply byte_ext; intro b
  rw [bitOf_writeSVNZC, newSVNZC, bitOf_sregOf]
  fin_cases b <;> simp [flagC, flagZ, flagN, flagV, flagS, bitOf]

theorem writeSVNZ_eq (sreg : Byte) (v n z : Bool) : writeSVNZ sreg v n z = newSVNZ sreg v n z := by
  apply byte_ext; intro b
  rw [bitOf_writeSVNZ, newSVNZ, newSVNZC, bitOf_sregOf]
  fin_cases b <;> simp [flagZ, flagN, flagV, flagS, bitOf]

theorem writeZC_eq (sreg : Byte) (z c : Bool) : writeZC sreg z c = newZC sreg z c := by
  apply byte_ext; intro b
  rw [bitOf_writeZC, newZC, bitOf_sregOf]
  fin_cases b <;> simp [flagC, flagZ, bitOf]

/-! ## Data space -/

/-- The address of a data address's I/O register. -/
theorem ioPlace_toNat {a : DataAddr} (h2 : a.toNat < 96) :
    (BitVec.ofNat 6 (a.toNat - 32)).toNat = a.toNat - 32 := by
  simp only [BitVec.toNat_ofNat]; omega

theorem ioPlace_eq_iff {a : DataAddr} (h1 : 32 ≤ a.toNat) (h2 : a.toNat < 96) (k : Nat)
    (hk : k < 64) :
    BitVec.ofNat 6 (a.toNat - 32) = BitVec.ofNat 6 k ↔ a = BitVec.ofNat 16 (k + 32) := by
  constructor
  · intro h
    have := congrArg BitVec.toNat h
    rw [ioPlace_toNat h2] at this
    apply BitVec.eq_of_toNat_eq
    simp only [BitVec.toNat_ofNat] at this ⊢
    omega
  · rintro rfl
    apply BitVec.eq_of_toNat_eq
    simp only [BitVec.toNat_ofNat]
    omega

theorem spl_eq (s : State) : s.spl = s.sp.setWidth 8 := by
  apply BitVec.eq_of_getLsbD_eq
  intro i hi
  simp [State.spl, hi]

theorem sph_eq (s : State) : s.sph = (s.sp >>> 8).setWidth 8 := by
  apply BitVec.eq_of_getLsbD_eq
  intro i hi
  rw [State.sph, BitVec.getLsbD_append]
  by_cases h : i < 4
  · simp [h, hi]
  · simp [h, hi, BitVec.getLsbD_of_ge _ _ (show 12 ≤ 8 + i by omega)]

theorem ne_of_ninetysix_le {a : DataAddr} (h : 96 ≤ a.toNat) (k : Nat) (hk : k < 96) :
    a ≠ BitVec.ofNat 16 k := by
  rintro rfl
  simp only [BitVec.toNat_ofNat] at h
  omega

/-- A read of data space is `byteAt`, the state after it `afterRead`, its stop `readFault`. -/
theorem memRead_eq (s : State) (a : DataAddr) :
    memRead s a = match byteAt s a with
      | some v => .next (v, afterRead s a)
      | none => .fault (readFault a) := by
  rcases dataPlace_cases a with ⟨h1, e⟩ | ⟨h1, h2, e⟩ | ⟨h1, h2, e⟩ | ⟨h1, e⟩
  · simp only [memRead, e, byteAt, dif_pos h1, afterRead]
    rw [if_neg (by simp [isDevice]; omega)]
    rfl
  · simp only [memRead, e, byteAt]
    rw [dif_neg (by omega)]
    have n1 := ioPlace_eq_iff h1 h2 0x3F (by omega)
    have n2 := ioPlace_eq_iff h1 h2 0x3E (by omega)
    have n3 := ioPlace_eq_iff h1 h2 0x3D (by omega)
    have n4 := ioPlace_eq_iff h1 h2 0x35 (by omega)
    norm_num at n1 n2 n3 n4
    simp only [ioRead, n1, n2, n3, n4, afterRead, isDevice, deviceRead]
    by_cases c1 : a = 0x5F#16
    · simp [c1]
    · by_cases c2 : a = 0x5E#16
      · simp [c2, sph_eq]
      · by_cases c3 : a = 0x5D#16
        · simp [c3, spl_eq]
        · by_cases c4 : a = 0x55#16
          · simp [c4]
          · simp [c1, c2, c3, c4, h1, h2]
  · have c := ne_of_ninetysix_le h1
    simp only [memRead, e, byteAt, dif_neg (show ¬ a.toNat < 0x20 by omega), c 0x5F (by omega),
      c 0x5E (by omega), c 0x5D (by omega), c 0x55 (by omega), show ¬ a.toNat < 0x60 by omega,
      if_false, h2, if_true, afterRead, isDevice, readFault]
    cases Memory.read .sram s.sram a.toNat <;> simp
  · have c := ne_of_ninetysix_le (show 96 ≤ a.toNat by omega)
    simp only [memRead, e, byteAt, dif_neg (show ¬ a.toNat < 0x20 by omega), c 0x5F (by omega),
      c 0x5E (by omega), c 0x5D (by omega), c 0x55 (by omega), show ¬ a.toNat < 0x60 by omega,
      if_false, show ¬ a.toNat ≤ 0x85F by omega, readFault]

theorem low_byte_of_sp (v : BitVec 12) : v.extractLsb' 0 8 = v.setWidth 8 := by
  apply BitVec.eq_of_getLsbD_eq; intro i hi; simp [hi]

theorem low_half (v : Byte) : v.extractLsb' 0 4 = v.setWidth 4 := by
  apply BitVec.eq_of_getLsbD_eq; intro i hi; simp [hi]

theorem high_bits_of_sp (v : BitVec 12) : v.extractLsb' 8 4 = (v >>> 8).setWidth 4 := by
  apply BitVec.eq_of_getLsbD_eq; intro i hi; simp [hi]

/-- A write of data space is `stored`, its stop `writeStop`. -/
theorem memWrite_eq (s : State) (a : DataAddr) (v : Byte) :
    memWrite s a v = match stored s a v with
      | some t => .next t
      | none => writeStop a := by
  rcases dataPlace_cases a with ⟨h1, e⟩ | ⟨h1, h2, e⟩ | ⟨h1, h2, e⟩ | ⟨h1, e⟩
  · simp only [memWrite, e, stored, dif_pos h1]
    rfl
  · simp only [memWrite, e, stored]
    rw [dif_neg (by omega)]
    have n1 := ioPlace_eq_iff h1 h2 0x3F (by omega)
    have n2 := ioPlace_eq_iff h1 h2 0x3E (by omega)
    have n3 := ioPlace_eq_iff h1 h2 0x3D (by omega)
    have n4 := ioPlace_eq_iff h1 h2 0x35 (by omega)
    have n5 := ioPlace_eq_iff h1 h2 0x37 (by omega)
    have n6 := ioPlace_eq_iff h1 h2 0x3B (by omega)
    norm_num at n1 n2 n3 n4 n5 n6
    simp only [ioWrite, n1, n2, n3, n4, n5, n6, deviceWrite, writeStop, low_byte_of_sp, low_half,
      high_bits_of_sp, State.writeSreg]
    by_cases c1 : a = 0x5F#16
    · simp only [if_pos c1]; rfl
    · simp only [if_neg c1]
      by_cases c2 : a = 0x5E#16
      · simp [c2]
      · simp only [if_neg c2]
        by_cases c3 : a = 0x5D#16
        · simp [c3]
        · simp only [if_neg c3]
          by_cases c4 : a = 0x55#16
          · simp [c4]
          · simp only [if_neg c4]
            by_cases c5 : a = 0x57#16 ∧ v.getLsbD 0 = true
            · have c5' : a = 0x57#16 ∧ bitOf v 0 = true := c5
              rw [if_pos c5', if_pos c5]; simp [c5.1]
            · have c5' : ¬ (a = 0x57#16 ∧ bitOf v 0 = true) := c5
              rw [if_neg c5', if_neg c5]
              by_cases c6 : a = 0x5B#16 ∧ (v.getLsbD 1 = true ∨ v.getLsbD 0 = true)
              · have c6' : a = 0x5B#16 ∧ (bitOf v 1 = true ∨ bitOf v 0 = true) := c6
                rw [if_pos c6', if_pos c6]; simp [c6.1]
              · have c6' : ¬ (a = 0x5B#16 ∧ (bitOf v 1 = true ∨ bitOf v 0 = true)) := c6
                rw [if_neg c6', if_neg c6, if_pos h2, ioPlace_toNat h2]
  · have c := ne_of_ninetysix_le h1
    simp only [memWrite, e, stored, dif_neg (show ¬ a.toNat < 0x20 by omega), c 0x5F (by omega),
      c 0x5E (by omega), c 0x5D (by omega), c 0x55 (by omega), c 0x57 (by omega),
      c 0x5B (by omega), show ¬ a.toNat < 0x60 by omega, if_false, false_and, h2, if_true]
  · have c := ne_of_ninetysix_le (show 96 ≤ a.toNat by omega)
    simp only [memWrite, e, stored, dif_neg (show ¬ a.toNat < 0x20 by omega), c 0x5F (by omega),
      c 0x5E (by omega), c 0x5D (by omega), c 0x55 (by omega), c 0x57 (by omega),
      c 0x5B (by omega), show ¬ a.toNat < 0x60 by omega, if_false, false_and,
      show ¬ a.toNat ≤ 0x85F by omega, writeStop]

/-- A store leaves pc alone. -/
theorem stored_pc {s t : State} {a : DataAddr} {v : Byte} (h : stored s a v = some t) :
    t.pc = s.pc := by
  have e := memWrite_eq s a v
  rw [h] at e
  exact (memWrite_keeps e).1

/-! ## Stack -/

/-- A push that `pushed` gives a state goes on to that state. -/
theorem push8_of_pushed {s t : State} {v : Byte} (h : pushed s v = some t) :
    push8 s v = .next t := by
  unfold pushed at h
  split at h
  · simp at h
  · rename_i g
    rw [Option.map_eq_some_iff] at h
    obtain ⟨u, hu, rfl⟩ := h
    rw [push8, if_neg g, State.spAddr, memWrite_eq, hu]
    rfl

/-- The low byte of a return address. -/
theorem return_low (a : ProgAddr) : (a.setWidth 16).extractLsb' 0 8 = a.setWidth 8 := by
  apply BitVec.eq_of_getLsbD_eq; intro i hi; simp [hi]; omega

/-- The high byte of a return address. -/
theorem return_high (a : ProgAddr) : (a.setWidth 16).extractLsb' 8 8 = (a >>> 8).setWidth 8 := by
  apply BitVec.eq_of_getLsbD_eq; intro i hi; simp [hi]; omega

/-- A push of a return address that `pushedPC` gives a state goes on to that state. -/
theorem pushPC_of_pushedPC {s t : State} {a : ProgAddr} (h : pushedPC s a = some t) :
    pushPC s a = .next t := by
  unfold pushedPC at h
  rw [Option.bind_eq_some_iff] at h
  obtain ⟨u, hu, ht⟩ := h
  simp only [pushPC, return_low, return_high, push8_of_pushed hu, bind_next, push8_of_pushed ht]

end Sys2Proof.Machine
end

