-- ==== Sys2Proof/Laws/Decode.lean ====
section
/-! SUPPORT. The opcode list's rows exclude each other (30_encoding.md R79), so that a word that
matches a row is decoded by that row. -/
namespace Sys2Proof

/-- Two rows have a bit that both fix and fix differently. -/
def Row.clash (p q : Row) : Bool := (p.mask &&& q.mask) &&& (p.value ^^^ q.value) != 0#16

theorem rows_clash : opcodeRows.Pairwise (fun p q => p.clash q = true) := by
  decide +kernel

/-- Rows that clash match no word in common. -/
theorem not_matches_of_clash {p q : Row} {w : Word} (h : p.clash q = true)
    (hp : p.matches w = true) : q.matches w = false := by
  by_contra hq
  simp only [Bool.not_eq_false, Row.matches, beq_iff_eq] at hp hq
  simp only [Row.clash, bne_iff_ne, ne_eq] at h
  apply h
  rw [← hp, ← hq]
  apply BitVec.eq_of_getLsbD_eq
  intro i hi
  simp only [BitVec.getLsbD_and, BitVec.getLsbD_xor, BitVec.getLsbD_zero]
  cases w.getLsbD i <;> cases p.mask.getLsbD i <;> cases q.mask.getLsbD i <;> rfl

theorem find_of_clash {l : List Row} (hl : l.Pairwise (fun p q => p.clash q = true)) {row : Row}
    (hr : row ∈ l) {w : Word} (hm : row.matches w = true) :
    l.find? (·.matches w) = some row := by
  induction l with
  | nil => simp at hr
  | cons q t ih =>
    rw [List.pairwise_cons] at hl
    rcases List.mem_cons.1 hr with rfl | hr
    · simp [hm]
    · have hq : q.matches w = false := by
        by_contra hq
        rw [Bool.not_eq_false] at hq
        rw [not_matches_of_clash (hl.1 row hr) hq] at hm
        simp at hm
      rw [List.find?_cons_of_neg (by simp [hq])]
      exact ih hl.2 hr

/-- A word that matches a row of the list is decoded by that row. -/
theorem rowOf_of_matches {row : Row} (hr : row ∈ opcodeRows) {w : Word}
    (hm : row.matches w = true) : rowOf w = some row :=
  find_of_clash rows_clash hr hm

/-- A decoded word has a row, which matches it. -/
theorem rowOf_some {w : Word} {row : Row} (h : rowOf w = some row) :
    row ∈ opcodeRows ∧ row.matches w = true :=
  ⟨List.mem_of_find?_eq_some h, by simpa using List.find?_some h⟩

/-- Everything a decoding that succeeds says. -/
theorem decodeWords_ok {w0 w1 : Word} {i : Instr} (h : decodeWords w0 w1 = .ok i) :
    ∃ row, rowOf w0 = some row ∧ i = narrowName (row.build w0 w1) := by
  unfold decodeWords at h
  split at h
  · simp at h
  · rename_i row hr
    exact ⟨row, hr, by simpa using h.symm⟩

/-- Everything a decoding that fails says. -/
theorem decodeWords_error {w0 w1 : Word} {e : DecodeError} (h : decodeWords w0 w1 = .error e) :
    rowOf w0 = none ∧ e = .reserved w0 := by
  unfold decodeWords at h
  split at h
  · exact ⟨by assumption, by simpa using h.symm⟩
  · simp at h

end Sys2Proof
end

