-- ==== Sys2Proof/Laws/PerInstr.lean ====
section
/-! SUPPORT. What is shown of every instruction, constructor by constructor: an instruction has the
words of the base instruction that it is another name of (30_encoding.md R79, R80). -/
namespace Sys2Proof.Laws

/-- The base instruction of an instruction has the same words. -/
def CanonicalWords.Statement (i : Instr) : Prop := encode (canonical i) = encode i

theorem CanonicalWords.mov (d : Reg) (r : Reg) : CanonicalWords.Statement (.mov d r) := rfl
theorem CanonicalWords.movw (d : Reg) (r : Reg) : CanonicalWords.Statement (.movw d r) := rfl
theorem CanonicalWords.ldi (d : Reg) (k : Byte) : CanonicalWords.Statement (.ldi d k) := rfl
theorem CanonicalWords.ldX (d : Reg) : CanonicalWords.Statement (.ldX d) := rfl
theorem CanonicalWords.ldXInc (d : Reg) : CanonicalWords.Statement (.ldXInc d) := rfl
theorem CanonicalWords.ldXDec (d : Reg) : CanonicalWords.Statement (.ldXDec d) := rfl
theorem CanonicalWords.ldY (d : Reg) : CanonicalWords.Statement (.ldY d) := rfl
theorem CanonicalWords.ldYInc (d : Reg) : CanonicalWords.Statement (.ldYInc d) := rfl
theorem CanonicalWords.ldYDec (d : Reg) : CanonicalWords.Statement (.ldYDec d) := rfl
theorem CanonicalWords.lddY (d : Reg) (q : BitVec 6) : CanonicalWords.Statement (.lddY d q) := rfl
theorem CanonicalWords.ldZ (d : Reg) : CanonicalWords.Statement (.ldZ d) := rfl
theorem CanonicalWords.ldZInc (d : Reg) : CanonicalWords.Statement (.ldZInc d) := rfl
theorem CanonicalWords.ldZDec (d : Reg) : CanonicalWords.Statement (.ldZDec d) := rfl
theorem CanonicalWords.lddZ (d : Reg) (q : BitVec 6) : CanonicalWords.Statement (.lddZ d q) := rfl
theorem CanonicalWords.lds (d : Reg) (k : Word) : CanonicalWords.Statement (.lds d k) := rfl
theorem CanonicalWords.stX (r : Reg) : CanonicalWords.Statement (.stX r) := rfl
theorem CanonicalWords.stXInc (r : Reg) : CanonicalWords.Statement (.stXInc r) := rfl
theorem CanonicalWords.stXDec (r : Reg) : CanonicalWords.Statement (.stXDec r) := rfl
theorem CanonicalWords.stY (r : Reg) : CanonicalWords.Statement (.stY r) := rfl
theorem CanonicalWords.stYInc (r : Reg) : CanonicalWords.Statement (.stYInc r) := rfl
theorem CanonicalWords.stYDec (r : Reg) : CanonicalWords.Statement (.stYDec r) := rfl
theorem CanonicalWords.stdY (q : BitVec 6) (r : Reg) : CanonicalWords.Statement (.stdY q r) := rfl
theorem CanonicalWords.stZ (r : Reg) : CanonicalWords.Statement (.stZ r) := rfl
theorem CanonicalWords.stZInc (r : Reg) : CanonicalWords.Statement (.stZInc r) := rfl
theorem CanonicalWords.stZDec (r : Reg) : CanonicalWords.Statement (.stZDec r) := rfl
theorem CanonicalWords.stdZ (q : BitVec 6) (r : Reg) : CanonicalWords.Statement (.stdZ q r) := rfl
theorem CanonicalWords.sts (k : Word) (r : Reg) : CanonicalWords.Statement (.sts k r) := rfl
theorem CanonicalWords.lpmR0 : CanonicalWords.Statement (.lpmR0) := rfl
theorem CanonicalWords.lpmZ (d : Reg) : CanonicalWords.Statement (.lpmZ d) := rfl
theorem CanonicalWords.lpmZInc (d : Reg) : CanonicalWords.Statement (.lpmZInc d) := rfl
theorem CanonicalWords.spm : CanonicalWords.Statement (.spm) := rfl
theorem CanonicalWords.inp (d : Reg) (a : IoAddr) : CanonicalWords.Statement (.inp d a) := rfl
theorem CanonicalWords.out (a : IoAddr) (r : Reg) : CanonicalWords.Statement (.out a r) := rfl
theorem CanonicalWords.push (r : Reg) : CanonicalWords.Statement (.push r) := rfl
theorem CanonicalWords.pop (d : Reg) : CanonicalWords.Statement (.pop d) := rfl
theorem CanonicalWords.rjmp (k : BitVec 12) : CanonicalWords.Statement (.rjmp k) := rfl
theorem CanonicalWords.ijmp : CanonicalWords.Statement (.ijmp) := rfl
theorem CanonicalWords.jmp (k : BitVec 22) : CanonicalWords.Statement (.jmp k) := rfl
theorem CanonicalWords.rcall (k : BitVec 12) : CanonicalWords.Statement (.rcall k) := rfl
theorem CanonicalWords.icall : CanonicalWords.Statement (.icall) := rfl
theorem CanonicalWords.call (k : BitVec 22) : CanonicalWords.Statement (.call k) := rfl
theorem CanonicalWords.ret : CanonicalWords.Statement (.ret) := rfl
theorem CanonicalWords.reti : CanonicalWords.Statement (.reti) := rfl
theorem CanonicalWords.cpse (d : Reg) (r : Reg) : CanonicalWords.Statement (.cpse d r) := rfl
theorem CanonicalWords.cp (d : Reg) (r : Reg) : CanonicalWords.Statement (.cp d r) := rfl
theorem CanonicalWords.cpc (d : Reg) (r : Reg) : CanonicalWords.Statement (.cpc d r) := rfl
theorem CanonicalWords.cpi (d : Reg) (k : Byte) : CanonicalWords.Statement (.cpi d k) := rfl
theorem CanonicalWords.sbrc (r : Reg) (b : BitNo) : CanonicalWords.Statement (.sbrc r b) := rfl
theorem CanonicalWords.sbrs (r : Reg) (b : BitNo) : CanonicalWords.Statement (.sbrs r b) := rfl
theorem CanonicalWords.sbic (a : LowIoAddr) (b : BitNo) : CanonicalWords.Statement (.sbic a b) := rfl
theorem CanonicalWords.sbis (a : LowIoAddr) (b : BitNo) : CanonicalWords.Statement (.sbis a b) := rfl
theorem CanonicalWords.brbs (s : BitNo) (k : BitVec 7) : CanonicalWords.Statement (.brbs s k) := rfl
theorem CanonicalWords.brbc (s : BitNo) (k : BitVec 7) : CanonicalWords.Statement (.brbc s k) := rfl
theorem CanonicalWords.breq (k : BitVec 7) : CanonicalWords.Statement (.breq k) := rfl
theorem CanonicalWords.brne (k : BitVec 7) : CanonicalWords.Statement (.brne k) := rfl
theorem CanonicalWords.brcs (k : BitVec 7) : CanonicalWords.Statement (.brcs k) := rfl
theorem CanonicalWords.brcc (k : BitVec 7) : CanonicalWords.Statement (.brcc k) := rfl
theorem CanonicalWords.brsh (k : BitVec 7) : CanonicalWords.Statement (.brsh k) := rfl
theorem CanonicalWords.brlo (k : BitVec 7) : CanonicalWords.Statement (.brlo k) := rfl
theorem CanonicalWords.brmi (k : BitVec 7) : CanonicalWords.Statement (.brmi k) := rfl
theorem CanonicalWords.brpl (k : BitVec 7) : CanonicalWords.Statement (.brpl k) := rfl
theorem CanonicalWords.brge (k : BitVec 7) : CanonicalWords.Statement (.brge k) := rfl
theorem CanonicalWords.brlt (k : BitVec 7) : CanonicalWords.Statement (.brlt k) := rfl
theorem CanonicalWords.brhs (k : BitVec 7) : CanonicalWords.Statement (.brhs k) := rfl
theorem CanonicalWords.brhc (k : BitVec 7) : CanonicalWords.Statement (.brhc k) := rfl
theorem CanonicalWords.brts (k : BitVec 7) : CanonicalWords.Statement (.brts k) := rfl
theorem CanonicalWords.brtc (k : BitVec 7) : CanonicalWords.Statement (.brtc k) := rfl
theorem CanonicalWords.brvs (k : BitVec 7) : CanonicalWords.Statement (.brvs k) := rfl
theorem CanonicalWords.brvc (k : BitVec 7) : CanonicalWords.Statement (.brvc k) := rfl
theorem CanonicalWords.brie (k : BitVec 7) : CanonicalWords.Statement (.brie k) := rfl
theorem CanonicalWords.brid (k : BitVec 7) : CanonicalWords.Statement (.brid k) := rfl
theorem CanonicalWords.sbi (a : LowIoAddr) (b : BitNo) : CanonicalWords.Statement (.sbi a b) := rfl
theorem CanonicalWords.cbi (a : LowIoAddr) (b : BitNo) : CanonicalWords.Statement (.cbi a b) := rfl
theorem CanonicalWords.lsl (d : Reg) : CanonicalWords.Statement (.lsl d) := rfl
theorem CanonicalWords.lsr (d : Reg) : CanonicalWords.Statement (.lsr d) := rfl
theorem CanonicalWords.rol (d : Reg) : CanonicalWords.Statement (.rol d) := rfl
theorem CanonicalWords.ror (d : Reg) : CanonicalWords.Statement (.ror d) := rfl
theorem CanonicalWords.asr (d : Reg) : CanonicalWords.Statement (.asr d) := rfl
theorem CanonicalWords.swap (d : Reg) : CanonicalWords.Statement (.swap d) := rfl
theorem CanonicalWords.bset (s : BitNo) : CanonicalWords.Statement (.bset s) := rfl
theorem CanonicalWords.bclr (s : BitNo) : CanonicalWords.Statement (.bclr s) := rfl
theorem CanonicalWords.bst (d : Reg) (b : BitNo) : CanonicalWords.Statement (.bst d b) := rfl
theorem CanonicalWords.bld (d : Reg) (b : BitNo) : CanonicalWords.Statement (.bld d b) := rfl
theorem CanonicalWords.sec : CanonicalWords.Statement (.sec) := rfl
theorem CanonicalWords.clc : CanonicalWords.Statement (.clc) := rfl
theorem CanonicalWords.sen : CanonicalWords.Statement (.sen) := rfl
theorem CanonicalWords.cln : CanonicalWords.Statement (.cln) := rfl
theorem CanonicalWords.sez : CanonicalWords.Statement (.sez) := rfl
theorem CanonicalWords.clz : CanonicalWords.Statement (.clz) := rfl
theorem CanonicalWords.sei : CanonicalWords.Statement (.sei) := rfl
theorem CanonicalWords.cli : CanonicalWords.Statement (.cli) := rfl
theorem CanonicalWords.ses : CanonicalWords.Statement (.ses) := rfl
theorem CanonicalWords.cls : CanonicalWords.Statement (.cls) := rfl
theorem CanonicalWords.sev : CanonicalWords.Statement (.sev) := rfl
theorem CanonicalWords.clv : CanonicalWords.Statement (.clv) := rfl
theorem CanonicalWords.sett : CanonicalWords.Statement (.sett) := rfl
theorem CanonicalWords.clt : CanonicalWords.Statement (.clt) := rfl
theorem CanonicalWords.seh : CanonicalWords.Statement (.seh) := rfl
theorem CanonicalWords.clh : CanonicalWords.Statement (.clh) := rfl
theorem CanonicalWords.add (d : Reg) (r : Reg) : CanonicalWords.Statement (.add d r) := rfl
theorem CanonicalWords.adc (d : Reg) (r : Reg) : CanonicalWords.Statement (.adc d r) := rfl
theorem CanonicalWords.adiw (d : Reg) (k : BitVec 6) : CanonicalWords.Statement (.adiw d k) := rfl
theorem CanonicalWords.sub (d : Reg) (r : Reg) : CanonicalWords.Statement (.sub d r) := rfl
theorem CanonicalWords.subi (d : Reg) (k : Byte) : CanonicalWords.Statement (.subi d k) := rfl
theorem CanonicalWords.sbc (d : Reg) (r : Reg) : CanonicalWords.Statement (.sbc d r) := rfl
theorem CanonicalWords.sbci (d : Reg) (k : Byte) : CanonicalWords.Statement (.sbci d k) := rfl
theorem CanonicalWords.sbiw (d : Reg) (k : BitVec 6) : CanonicalWords.Statement (.sbiw d k) := rfl
theorem CanonicalWords.and (d : Reg) (r : Reg) : CanonicalWords.Statement (.and d r) := rfl
theorem CanonicalWords.andi (d : Reg) (k : Byte) : CanonicalWords.Statement (.andi d k) := rfl
theorem CanonicalWords.or (d : Reg) (r : Reg) : CanonicalWords.Statement (.or d r) := rfl
theorem CanonicalWords.ori (d : Reg) (k : Byte) : CanonicalWords.Statement (.ori d k) := rfl
theorem CanonicalWords.eor (d : Reg) (r : Reg) : CanonicalWords.Statement (.eor d r) := rfl
theorem CanonicalWords.com (d : Reg) : CanonicalWords.Statement (.com d) := rfl
theorem CanonicalWords.neg (d : Reg) : CanonicalWords.Statement (.neg d) := rfl
theorem CanonicalWords.sbr (d : Reg) (k : Byte) : CanonicalWords.Statement (.sbr d k) := rfl
theorem CanonicalWords.cbr (d : Reg) (k : Byte) : CanonicalWords.Statement (.cbr d k) := rfl
theorem CanonicalWords.inc (d : Reg) : CanonicalWords.Statement (.inc d) := rfl
theorem CanonicalWords.dec (d : Reg) : CanonicalWords.Statement (.dec d) := rfl
theorem CanonicalWords.tst (d : Reg) : CanonicalWords.Statement (.tst d) := rfl
theorem CanonicalWords.clr (d : Reg) : CanonicalWords.Statement (.clr d) := rfl
theorem CanonicalWords.ser (d : Reg) : CanonicalWords.Statement (.ser d) := rfl
theorem CanonicalWords.mul (d : Reg) (r : Reg) : CanonicalWords.Statement (.mul d r) := rfl
theorem CanonicalWords.muls (d : Reg) (r : Reg) : CanonicalWords.Statement (.muls d r) := rfl
theorem CanonicalWords.mulsu (d : Reg) (r : Reg) : CanonicalWords.Statement (.mulsu d r) := rfl
theorem CanonicalWords.fmul (d : Reg) (r : Reg) : CanonicalWords.Statement (.fmul d r) := rfl
theorem CanonicalWords.fmuls (d : Reg) (r : Reg) : CanonicalWords.Statement (.fmuls d r) := rfl
theorem CanonicalWords.fmulsu (d : Reg) (r : Reg) : CanonicalWords.Statement (.fmulsu d r) := rfl
theorem CanonicalWords.nop : CanonicalWords.Statement (.nop) := rfl
theorem CanonicalWords.sleep : CanonicalWords.Statement (.sleep) := rfl
theorem CanonicalWords.wdr : CanonicalWords.Statement (.wdr) := rfl
theorem CanonicalWords.brk : CanonicalWords.Statement (.brk) := rfl

end Sys2Proof.Laws
end

