-- ==== Sys2Proof/Laws/Safety.lean ====
section
/-! SUPPORT. Laws of the environment's inputs, of the named assumptions and of the end of a run. -/
namespace Sys2Proof.Machine

/-! ## The inputs of the boundaries -/

/-- Where the schedule lists an input, that is the input. -/
@[simp] theorem envInput_cons (s : State) (e : EnvInput) (l : List EnvInput) :
    envInput { s with env := e :: l } = e := rfl

/-- After the schedule the input is free: a draw for this boundary. -/
theorem envInput_free {s : State} (h : s.env = []) (r : s.envRest = .free) :
    envInput s = drawnInput s.boundaries := by
  simp [envInput, State.inputAt, h, r]

/-- A source is in a free input exactly where its draw says so. -/
theorem mem_drawnInput (n : Nat) (v : IntVector) :
    v ∈ (drawnInput n).requests ↔ Config.requestDraw n (vectorNumber v) = true := by
  cases v <;> simp [drawnInput, vectorOrder]

/-- After the schedule the same input can come at every boundary, without end. -/
theorem inputAt_always {s : State} {e : EnvInput} (h : s.env = []) (r : s.envRest = .always e)
    (k : Nat) : s.inputAt k = e := by
  simp [State.inputAt, h, r]

/-- The inputs after a step are those before it, one boundary on. -/
@[simp] theorem inputAt_pastInput (s : State) (k : Nat) : s.pastInput.inputAt k = s.inputAt (k + 1) := by
  have e : s.boundaries + 1 + k = s.boundaries + (k + 1) := by omega
  simp [State.inputAt, State.pastInput, List.getElem?_tail, e]

/-- What an input k boundaries on depends on. -/
theorem inputAt_congr {s t : State} (h1 : t.env = s.env) (h2 : t.envRest = s.envRest)
    (h3 : t.boundaries = s.boundaries) (k : Nat) : t.inputAt k = s.inputAt k := by
  simp only [State.inputAt, h1, h2, h3]

/-- `NoReset` still holds one boundary on. -/
theorem State.noReset_pastInput {s : State} (h : s.noReset) : s.pastInput.noReset := fun k => by
  simpa using h (k + 1)

/-! ## Sleep -/

/-- Every state has `NoSpuriousWake`: an asleep core at a boundary with neither a reset nor an
interrupt stays asleep. -/
theorem State.noSpuriousWake_holds (s : State) : s.noSpuriousWake := by
  intro t h hs ht
  rcases boundaryEvent_cases (envInput s) s with
    ⟨hr, _⟩ | ⟨_, _, e⟩ | ⟨n, _, _, _, _, e⟩ | ⟨_, _, _, ⟨_, e⟩ | ⟨hn, _⟩⟩
  · exact .inl hr
  · rcases atBoundary_next h with ⟨g, _⟩ | ⟨_, rfl⟩ | ⟨_, g, _⟩ | ⟨g, _⟩ | ⟨g, _⟩ <;> simp_all
  · exact .inr ⟨n, e⟩
  · rcases atBoundary_next h with ⟨g, _⟩ | ⟨g, _⟩ | ⟨_, g, _⟩ | ⟨_, rfl⟩ | ⟨g, _⟩ <;> simp_all
  · simp_all

/-- Under `NoReset` a core asleep with I = 0 stays as it is but for the input consumed: nothing can
follow (70_reset_and_hazards.md R366). -/
theorem step_asleep_noReset {s : State} (hs : s.sleeping = true) (hi : s.flag flagI = false)
    (h : s.noReset) : step s = .next s.pastInput := by
  have hr : (envInput s).reset = false := h 0
  have hn : s.interruptible = false := by simp [State.interruptible, hi]
  rcases boundaryEvent_cases (envInput s) s with
    ⟨g, _⟩ | ⟨_, _, e⟩ | ⟨n, _, _, g, _, e⟩ | ⟨_, _, _, ⟨_, e⟩ | ⟨g, _⟩⟩ <;>
    simp_all [step, atBoundary]

/-! ## The end of a run -/

/-- The state in which a run ends is final. -/
theorem endsAfter_final {endPc : ProgAddr} : ∀ {n : Nat} {s t : State},
    endsAfter endPc n s t → t.final endPc
  | 0, _, _, h => h.1 ▸ h.2
  | _ + 1, _, _, ⟨_, _, _, h⟩ => endsAfter_final h

/-- The state in which a run ends is reached. -/
theorem endsAfter_reaches {endPc : ProgAddr} : ∀ {n : Nat} {s t : State},
    endsAfter endPc n s t → reaches n s t
  | 0, _, _, h => h.1
  | _ + 1, _, _, ⟨_, u, hu, h⟩ => ⟨u, hu, endsAfter_reaches h⟩

/-- A run ends once, in one state: the first final one. -/
theorem endsAfter_unique {endPc : ProgAddr} : ∀ {n m : Nat} {s t u : State},
    endsAfter endPc n s t → endsAfter endPc m s u → n = m ∧ t = u
  | 0, 0, _, _, _, h, g => ⟨rfl, h.1.trans g.1.symm⟩
  | 0, _ + 1, _, _, _, h, g => absurd h.2 g.1
  | _ + 1, 0, _, _, _, h, g => absurd g.2 h.1
  | n + 1, m + 1, s, _, _, ⟨_, v, hv, h⟩, ⟨_, w, hw, g⟩ => by
      obtain rfl : v = w := by simpa [hv] using hw
      obtain ⟨rfl, e⟩ := endsAfter_unique h g
      exact ⟨rfl, e⟩

/-- A run whose state is not final and whose step stops ends nowhere. -/
theorem endsAfter_stuck {endPc : ProgAddr} {s : State} (hf : ¬ s.final endPc)
    (hs : ∀ u, step s ≠ .next u) (n : Nat) (t : State) : ¬ endsAfter endPc n s t := by
  cases n with
  | zero => exact fun h => hf h.2
  | succ n => exact fun ⟨_, u, hu, _⟩ => hs u hu

end Sys2Proof.Machine
end

