-- ==== Sys2Proof/Machine/Timing.lean ====
section
/-! DEFINITION. The clock cycles of an instruction (70_reset_and_hazards.md R380). They are
informative: the machine has no clock and no step reads them (entry 25). -/
namespace Sys2Proof.Machine

/-- Branches: 2 cycles when taken, 1 when not (R380, 41_branch.md R190). -/
def branchCycles (taken : Bool) : Nat := if taken then 2 else 1

/-- Skips: 1 cycle when not skipping, else 1 and the skipped words (R380, 41_branch.md R186). -/
def skipCycles (s : State) (cond : Bool) : Nat :=
  if cond then 1 + instrWords (s.progWord (s.pc + 1#14)) else 1

/-- Interrupt entry while awake (R380, 60_exceptions.md R327). -/
def interruptEntryCycles : Nat := 4

/-- The clock cycles of an instruction executed in s (R380); none for SPM, whose figure depends on
the operation. -/
def cycles (s : State) : Instr → Option Nat
  -- 40_data_transfer.md
  | .mov _ _ => some 1
  | .movw _ _ => some 1
  | .ldi _ _ => some 1
  | .ldX _ => some 2
  | .ldXInc _ => some 2
  | .ldXDec _ => some 2
  | .ldY _ => some 2
  | .ldYInc _ => some 2
  | .ldYDec _ => some 2
  | .lddY _ _ => some 2
  | .ldZ _ => some 2
  | .ldZInc _ => some 2
  | .ldZDec _ => some 2
  | .lddZ _ _ => some 2
  | .lds _ _ => some 2
  | .stX _ => some 2
  | .stXInc _ => some 2
  | .stXDec _ => some 2
  | .stY _ => some 2
  | .stYInc _ => some 2
  | .stYDec _ => some 2
  | .stdY _ _ => some 2
  | .stZ _ => some 2
  | .stZInc _ => some 2
  | .stZDec _ => some 2
  | .stdZ _ _ => some 2
  | .sts _ _ => some 2
  | .lpmR0 => some 3
  | .lpmZ _ => some 3
  | .lpmZInc _ => some 3
  | .spm => none
  | .inp _ _ => some 1
  | .out _ _ => some 1
  | .push _ => some 2
  | .pop _ => some 2
  -- 41_branch.md
  | .rjmp _ => some 2
  | .ijmp => some 2
  | .jmp _ => some 3
  | .rcall _ => some 3
  | .icall => some 3
  | .call _ => some 4
  | .ret => some 4
  | .reti => some 4
  | .cpse d r => some (skipCycles s (s.reg d == s.reg r))
  | .cp _ _ => some 1
  | .cpc _ _ => some 1
  | .cpi _ _ => some 1
  | .sbrc r b => some (skipCycles s (!bitOf (s.reg r) b))
  | .sbrs r b => some (skipCycles s (bitOf (s.reg r) b))
  | .sbic a b => some (skipCycles s (!bitOf (ioRead s (a.setWidth 6)).1 b))
  | .sbis a b => some (skipCycles s (bitOf (ioRead s (a.setWidth 6)).1 b))
  | .brbs b _ => some (branchCycles (s.flag b == true))
  | .brbc b _ => some (branchCycles (s.flag b == false))
  | .breq _ => some (branchCycles (s.flag flagZ == true))
  | .brne _ => some (branchCycles (s.flag flagZ == false))
  | .brcs _ => some (branchCycles (s.flag flagC == true))
  | .brcc _ => some (branchCycles (s.flag flagC == false))
  | .brsh _ => some (branchCycles (s.flag flagC == false))
  | .brlo _ => some (branchCycles (s.flag flagC == true))
  | .brmi _ => some (branchCycles (s.flag flagN == true))
  | .brpl _ => some (branchCycles (s.flag flagN == false))
  | .brge _ => some (branchCycles (s.flag flagS == false))
  | .brlt _ => some (branchCycles (s.flag flagS == true))
  | .brhs _ => some (branchCycles (s.flag flagH == true))
  | .brhc _ => some (branchCycles (s.flag flagH == false))
  | .brts _ => some (branchCycles (s.flag flagT == true))
  | .brtc _ => some (branchCycles (s.flag flagT == false))
  | .brvs _ => some (branchCycles (s.flag flagV == true))
  | .brvc _ => some (branchCycles (s.flag flagV == false))
  | .brie _ => some (branchCycles (s.flag flagI == true))
  | .brid _ => some (branchCycles (s.flag flagI == false))
  -- 42_bit_and_bit_test.md
  | .sbi _ _ => some 2
  | .cbi _ _ => some 2
  | .lsl _ => some 1
  | .lsr _ => some 1
  | .rol _ => some 1
  | .ror _ => some 1
  | .asr _ => some 1
  | .swap _ => some 1
  | .bset _ => some 1
  | .bclr _ => some 1
  | .bst _ _ => some 1
  | .bld _ _ => some 1
  | .sec => some 1
  | .clc => some 1
  | .sen => some 1
  | .cln => some 1
  | .sez => some 1
  | .clz => some 1
  | .sei => some 1
  | .cli => some 1
  | .ses => some 1
  | .cls => some 1
  | .sev => some 1
  | .clv => some 1
  | .sett => some 1
  | .clt => some 1
  | .seh => some 1
  | .clh => some 1
  -- 43_arithmetic_logic.md
  | .add _ _ => some 1
  | .adc _ _ => some 1
  | .adiw _ _ => some 2
  | .sub _ _ => some 1
  | .subi _ _ => some 1
  | .sbc _ _ => some 1
  | .sbci _ _ => some 1
  | .sbiw _ _ => some 2
  | .and _ _ => some 1
  | .andi _ _ => some 1
  | .or _ _ => some 1
  | .ori _ _ => some 1
  | .eor _ _ => some 1
  | .com _ => some 1
  | .neg _ => some 1
  | .sbr _ _ => some 1
  | .cbr _ _ => some 1
  | .inc _ => some 1
  | .dec _ => some 1
  | .tst _ => some 1
  | .clr _ => some 1
  | .ser _ => some 1
  | .mul _ _ => some 2
  | .muls _ _ => some 2
  | .mulsu _ _ => some 2
  | .fmul _ _ => some 2
  | .fmuls _ _ => some 2
  | .fmulsu _ _ => some 2
  -- 44_mcu_control.md
  | .nop => some 1
  | .sleep => some 1
  | .wdr => some 1
  | .brk => some 1

end Sys2Proof.Machine
end

