-- ==== Sys2Proof/Tests/Slice0.lean ====
section
/-! SUPPORT. Tests of one decoding or one step each, and a witness for every statement that has
hypotheses. Expected values are the spec's: V<n> is a row of 96_derived_vectors.md; a word is written
out from its row of spec/opcode_table.json. -/
namespace Sys2Proof.Tests
set_option Elab.async false
open Sys2Proof.Machine Sys2Proof.Claims

/-! ## Helpers -/

/-- The instruction these words decode to is i. -/
def reads (w : List Word) (i : Instr) : Bool :=
  match decodeWords (w.headD 0#16) (w.getD 1 0#16) with
  | .ok j => j == i
  | .error _ => false

/-- The words decode to the instruction, and it encodes to them. -/
def decodesAndEncodes (p : List Word × Instr) : Bool :=
  reads p.1 p.2 && encode p.2 == p.1 && p.2.wellFormed

/-- The outcome is a next state with the property. -/
def nextIs (o : Res State) (p : State → Bool) : Bool :=
  match o with
  | .next t => p t
  | _ => false

/-- The outcome is this fault. -/
def faultsWith (o : Res State) (e : Fault) : Bool :=
  match o with
  | .fault f => f == e
  | _ => false

/-- The outcome is this refusal. -/
def refusesWith (o : Res State) (e : Refusal) : Bool :=
  match o with
  | .refused f => f == e
  | _ => false

/-- The words stored from an address on. -/
def withWords (s : State) (a : ProgAddr) : List Word → State
  | [] => s
  | w :: rest => withWords (s.storeProgWord a w) (a + 1#14) rest

/-- The state after reset with pc, the words from pc on, SREG, SP, registers and SRAM bytes, in an
environment that never asks for anything. -/
def start (pc : ProgAddr) (words : List Word) (sreg : Byte) (sp : BitVec 12)
    (regs : List (Reg × Byte)) (sram : Memory) : State :=
  regs.foldl (fun s p => s.setReg p.1 p.2)
    { withWords State.reset pc words with
      pc := pc, sreg := sreg, sp := sp, sram := sram, envRest := .always .quiet }

/-- The outcome is a next state with this pc, SREG, SP and these registers and SRAM bytes. -/
def becomes (o : Res State) (pc : ProgAddr) (sreg : Byte) (sp : BitVec 12)
    (regs : List (Reg × Byte)) (sram : Memory) : Bool :=
  nextIs o fun t => t.pc == pc && t.sreg == sreg && t.sp == sp &&
    regs.all (fun p => t.reg p.1 == p.2) &&
    sram.all (fun p => Memory.read .sram t.sram p.1 == some p.2)

/-- No reset, not stopped, awake, and no interrupt to take. -/
def noEventAt (s : State) : Bool :=
  !(envInput s).reset && !s.stopped && !s.sleeping &&
    (!s.sreg.getLsbD 7 || s.irqDelay || (envInput s).requests == [])

/-- The same, and the words at pc decode to i. -/
def runsAt (s : State) (i : Instr) : Bool :=
  noEventAt s && reads [s.progWord s.pc, s.progWord (s.pc + 1#14)] i

/-- The invariant, decided. -/
def invHolds (s : State) : Bool := s.sramOk && s.flashOk && s.ioWrittenOk && s.delayOk

/-- `apart`, decided. -/
def apartAt (d r : Reg) (a : DataAddr) : Bool :=
  r != d && r != d + 1 && a.toNat != d.val && a.toNat != d.val + 1

/-! ## Well-formedness: each check refuses an ill-formed term -/

theorem test_upper_register_refused :
    [Instr.ldi 15 0#8, .cpi 15 0#8, .subi 0 0#8, .sbci 15 0#8, .andi 15 0#8, .ori 15 0#8, .sbr 15 0#8,
     .cbr 15 0#8, .ser 15, .muls 15 16, .muls 16 15].all (fun i => !i.wellFormed) = true := by decide
theorem test_multiply_register_refused :
    [Instr.mulsu 15 16, .mulsu 16 24, .fmul 24 16, .fmul 16 15, .fmuls 24 16, .fmuls 16 24,
     .fmulsu 15 16, .fmulsu 16 24].all (fun i => !i.wellFormed) = true := by decide
theorem test_even_register_refused :
    [Instr.movw 1 0, .movw 0 31].all (fun i => !i.wellFormed) = true := by decide
theorem test_word_register_refused :
    [Instr.adiw 22 0#6, .adiw 25 0#6, .sbiw 23 0#6, .sbiw 31 0#6].all (fun i => !i.wellFormed) = true := by
  decide

/-! ## Decoding: for every constructor a word written out from the opcode table -/

theorem test_decode_data_transfer_1 : [
    ([0b0010111001010110#16], .mov 5 22),
    ([0b0000000111101001#16], .movw 28 18),
    ([0b1110100001100101#16], .ldi 22 0x85#8),
    ([0b1001000111101100#16], .ldX 30),
    ([0b1001000111101101#16], .ldXInc 30),
    ([0b1001000111101110#16], .ldXDec 30),
    ([0b1000000010011000#16], .ldY 9),
    ([0b1001000100101001#16], .ldYInc 18),
    ([0b1001000101011010#16], .ldYDec 21),
    ([0b1010000010011101#16], .lddY 9 0x25#6),
    ([0b1000000101010000#16], .ldZ 21),
    ([0b1001000101010001#16], .ldZInc 21),
    ([0b1001000101010010#16], .ldZDec 21),
    ([0b1010000101010011#16], .lddZ 21 0x23#6),
    ([0b1001000101010000#16, 0b1011110001100001#16], .lds 21 0xBC61#16),
    ([0b1001001101101100#16], .stX 22),
    ([0b1001001100111101#16], .stXInc 19),
    ([0b1001001100111110#16], .stXDec 19),
    ([0b1000001100111000#16], .stY 19),
    ([0b1001001101101001#16], .stYInc 22)].all decodesAndEncodes = true := by
  decide +kernel
theorem test_decode_data_transfer_2 : [
    ([0b1001001100111010#16], .stYDec 19),
    ([0b1010011100111101#16], .stdY 0x2D#6 19),
    ([0b1000001100110000#16], .stZ 19),
    ([0b1001001101100001#16], .stZInc 22),
    ([0b1001001100110010#16], .stZDec 19),
    ([0b1010011111110101#16], .stdZ 0x2D#6 31),
    ([0b1001001100110000#16, 0b1001010010100001#16], .sts 0x94A1#16 19),
    ([0b1001010111001000#16], .lpmR0),
    ([0b1001000100100100#16], .lpmZ 18),
    ([0b1001000111100101#16], .lpmZInc 30),
    ([0b1001010111101000#16], .spm),
    ([0b1011010101010011#16], .inp 21 0x23#6),
    ([0b1011110100111011#16], .out 0x2B#6 19),
    ([0b1001001010101111#16], .push 10),
    ([0b1001000001011111#16], .pop 5)].all decodesAndEncodes = true := by
  decide +kernel
theorem test_decode_branches_1 : [
    ([0b1100101010001111#16], .rjmp 0xA8F#12),
    ([0b1001010000001001#16], .ijmp),
    ([0b1001010101101101#16, 0b0110111000000001#16], .jmp 0x2D6E01#22),
    ([0b1101101011001111#16], .rcall 0xACF#12),
    ([0b1001010100001001#16], .icall),
    ([0b1001010101011111#16, 0b1100000000111111#16], .call 0x2BC03F#22),
    ([0b1001010100001000#16], .ret),
    ([0b1001010100011000#16], .reti),
    ([0b0001001101010011#16], .cpse 21 19),
    ([0b0001011100100110#16], .cp 18 22),
    ([0b0000011010010110#16], .cpc 9 22),
    ([0b0011101100010001#16], .cpi 17 0xB1#8),
    ([0b1111110101100101#16], .sbrc 22 5),
    ([0b1111111101100101#16], .sbrs 22 5),
    ([0b1001100110011101#16], .sbic 0x13#5 5),
    ([0b1001101110011101#16], .sbis 0x13#5 5),
    ([0b1111001011001001#16], .breq 0x59#7),
    ([0b1111011001011001#16], .brne 0x4B#7)].all decodesAndEncodes = true := by
  decide +kernel
theorem test_decode_branches_2 : [
    ([0b1111001010101000#16], .brcs 0x55#7),
    ([0b1111011000001000#16], .brcc 0x41#7),
    ([0b1111001011101010#16], .brmi 0x5D#7),
    ([0b1111011010011010#16], .brpl 0x53#7),
    ([0b1111011000011100#16], .brge 0x43#7),
    ([0b1111001001101100#16], .brlt 0x4D#7),
    ([0b1111001001111101#16], .brhs 0x4F#7),
    ([0b1111011010111101#16], .brhc 0x57#7),
    ([0b1111001001111110#16], .brts 0x4F#7),
    ([0b1111011010101110#16], .brtc 0x55#7),
    ([0b1111001011001011#16], .brvs 0x59#7),
    ([0b1111011001011011#16], .brvc 0x4B#7),
    ([0b1111001001111111#16], .brie 0x4F#7),
    ([0b1111011010101111#16], .brid 0x55#7)].all decodesAndEncodes = true := by
  decide +kernel
theorem test_decode_bit_operations_1 : [
    ([0b1001101010101101#16], .sbi 0x15#5 5),
    ([0b1001100010011101#16], .cbi 0x13#5 5),
    ([0b0000111111101110#16], .lsl 30),
    ([0b1001010111100110#16], .lsr 30),
    ([0b0001111101010101#16], .rol 21),
    ([0b1001010111100111#16], .ror 30),
    ([0b1001010001010101#16], .asr 5),
    ([0b1001010010010010#16], .swap 9),
    ([0b1111101100100101#16], .bst 18 5),
    ([0b1111100100100101#16], .bld 18 5),
    ([0b1001010000001000#16], .sec),
    ([0b1001010010001000#16], .clc),
    ([0b1001010000101000#16], .sen),
    ([0b1001010010101000#16], .cln),
    ([0b1001010000011000#16], .sez),
    ([0b1001010010011000#16], .clz),
    ([0b1001010001111000#16], .sei),
    ([0b1001010011111000#16], .cli)].all decodesAndEncodes = true := by
  decide +kernel
theorem test_decode_bit_operations_2 : [
    ([0b1001010001001000#16], .ses),
    ([0b1001010011001000#16], .cls),
    ([0b1001010000111000#16], .sev),
    ([0b1001010010111000#16], .clv),
    ([0b1001010001101000#16], .sett),
    ([0b1001010011101000#16], .clt),
    ([0b1001010001011000#16], .seh),
    ([0b1001010011011000#16], .clh)].all decodesAndEncodes = true := by
  decide +kernel
theorem test_decode_arithmetic_logic_1 : [
    ([0b0000110101011010#16], .add 21 10),
    ([0b0001111001010110#16], .adc 5 22),
    ([0b1001011010100011#16], .adiw 28 0x23#6),
    ([0b0001101100100110#16], .sub 18 22),
    ([0b0101100000011111#16], .subi 17 0x8F#8),
    ([0b0000101101011111#16], .sbc 21 31),
    ([0b0100101010101001#16], .sbci 26 0xA9#8),
    ([0b1001011110100111#16], .sbiw 28 0x27#6),
    ([0b0010000100101010#16], .and 18 10),
    ([0b0111100111101101#16], .andi 30 0x9D#8),
    ([0b0010100010011010#16], .or 9 10),
    ([0b0110100100011011#16], .ori 17 0x9B#8),
    ([0b0010010100100110#16], .eor 18 6),
    ([0b1001010100100000#16], .com 18),
    ([0b1001010010010001#16], .neg 9),
    ([0b1001010111100011#16], .inc 30),
    ([0b1001010010011010#16], .dec 9),
    ([0b0010000001010101#16], .tst 5)].all decodesAndEncodes = true := by
  decide +kernel
theorem test_decode_arithmetic_logic_2 : [
    ([0b0010010010011001#16], .clr 9),
    ([0b1110111100011111#16], .ser 17),
    ([0b1001111001010011#16], .mul 5 19),
    ([0b0000001000101011#16], .muls 18 27),
    ([0b0000001100110110#16], .mulsu 19 22),
    ([0b0000001100111110#16], .fmul 19 22),
    ([0b0000001110110110#16], .fmuls 19 22),
    ([0b0000001110111110#16], .fmulsu 19 22)].all decodesAndEncodes = true := by
  decide +kernel
theorem test_decode_mcu_control : [
    ([0b0000000000000000#16], .nop),
    ([0b1001010110001000#16], .sleep),
    ([0b1001010110101000#16], .wdr),
    ([0b1001010110011000#16], .brk)].all decodesAndEncodes = true := by
  decide +kernel
/-- Words that the decoder reads under another of their names (R79, R80; entry 12). -/
theorem test_decode_shared_words : [
    ([0b1111001001101101#16], .brbs 5 0x4D#7, .brhs 0x4D#7),
    ([0b1111011000111101#16], .brbc 5 0x47#7, .brhc 0x47#7),
    ([0b1111011011111000#16], .brsh 0x5F#7, .brcc 0x5F#7),
    ([0b1111001011101000#16], .brlo 0x5D#7, .brcs 0x5D#7),
    ([0b1001010001011000#16], .bset 5, .seh),
    ([0b1001010011011000#16], .bclr 5, .clh),
    ([0b0110100000011011#16], .sbr 17 0x8B#8, .ori 17 0x8B#8),
    ([0b0111011101111010#16], .cbr 23 0x85#8, .andi 23 0x7A#8)].all
    (fun p : List Word × Instr × Instr => reads p.1 p.2.2 && encode p.2.1 == p.1) = true := by
  decide +kernel

/-! ## Steps from the tables of vectors -/

/-- V1. -/
theorem test_add_V1 : becomes
    (step (start 0x0000#14 [0x0F01#16] 0x00#8 0x000#12 [(16, 0xFF#8), (17, 0x01#8)] []))
    0x0001#14 0x23#8 0x000#12 [(16, 0x00#8), (17, 0x01#8)] [] = true := by
  decide +kernel
/-- V5. -/
theorem test_lsl_V5 : becomes
    (step (start 0x0000#14 [0x0C55#16] 0x00#8 0x000#12 [(5, 0x40#8)] []))
    0x0001#14 0x0C#8 0x000#12 [(5, 0x80#8)] [] = true := by
  decide +kernel
/-- V6. -/
theorem test_adc_V6 : becomes
    (step (start 0x0000#14 [0x1F01#16] 0x01#8 0x000#12 [(16, 0xFF#8), (17, 0x00#8)] []))
    0x0001#14 0x23#8 0x000#12 [(16, 0x00#8), (17, 0x00#8)] [] = true := by
  decide +kernel
/-- V7. -/
theorem test_adc_V7 : becomes
    (step (start 0x0000#14 [0x1F01#16] 0x01#8 0x000#12 [(16, 0x7F#8), (17, 0x7F#8)] []))
    0x0001#14 0x2C#8 0x000#12 [(16, 0xFF#8), (17, 0x7F#8)] [] = true := by
  decide +kernel
/-- V9. -/
theorem test_adiw_V9 : becomes
    (step (start 0x0000#14 [0x9601#16] 0x00#8 0x000#12 [(24, 0xFF#8), (25, 0xFF#8)] []))
    0x0001#14 0x03#8 0x000#12 [(24, 0x00#8), (25, 0x00#8)] [] = true := by
  decide +kernel
/-- V13. -/
theorem test_sub_V13 : becomes
    (step (start 0x0000#14 [0x1B01#16] 0x00#8 0x000#12 [(16, 0x00#8), (17, 0x01#8)] []))
    0x0001#14 0x35#8 0x000#12 [(16, 0xFF#8), (17, 0x01#8)] [] = true := by
  decide +kernel
/-- V14. -/
theorem test_sub_V14 : becomes
    (step (start 0x0000#14 [0x1B01#16] 0x00#8 0x000#12 [(16, 0x80#8), (17, 0x01#8)] []))
    0x0001#14 0x38#8 0x000#12 [(16, 0x7F#8), (17, 0x01#8)] [] = true := by
  decide +kernel
/-- V17. -/
theorem test_subi_V17 : becomes
    (step (start 0x0000#14 [0x5000#16] 0x01#8 0x000#12 [(16, 0x00#8)] []))
    0x0001#14 0x02#8 0x000#12 [(16, 0x00#8)] [] = true := by
  decide +kernel
/-- V19. -/
theorem test_sbc_V19 : becomes
    (step (start 0x0000#14 [0x0B01#16] 0x02#8 0x000#12 [(16, 0x00#8), (17, 0x00#8)] []))
    0x0001#14 0x02#8 0x000#12 [(16, 0x00#8), (17, 0x00#8)] [] = true := by
  decide +kernel
/-- V24. -/
theorem test_sbci_V24 : becomes
    (step (start 0x0000#14 [0x470F#16] 0x01#8 0x000#12 [(16, 0x80#8)] []))
    0x0001#14 0x38#8 0x000#12 [(16, 0x00#8)] [] = true := by
  decide +kernel
/-- V25. -/
theorem test_sbiw_V25 : becomes
    (step (start 0x0000#14 [0x9701#16] 0x00#8 0x000#12 [(24, 0x00#8), (25, 0x00#8)] []))
    0x0001#14 0x15#8 0x000#12 [(24, 0xFF#8), (25, 0xFF#8)] [] = true := by
  decide +kernel
/-- V26. -/
theorem test_sbiw_V26 : becomes
    (step (start 0x0000#14 [0x9701#16] 0x00#8 0x000#12 [(24, 0x00#8), (25, 0x80#8)] []))
    0x0001#14 0x18#8 0x000#12 [(24, 0xFF#8), (25, 0x7F#8)] [] = true := by
  decide +kernel
/-- V28. -/
theorem test_cp_V28 : becomes
    (step (start 0x0000#14 [0x1701#16] 0x00#8 0x000#12 [(16, 0x10#8), (17, 0x20#8)] []))
    0x0001#14 0x15#8 0x000#12 [(16, 0x10#8), (17, 0x20#8)] [] = true := by
  decide +kernel
/-- V29. -/
theorem test_cpc_V29 : becomes
    (step (start 0x0000#14 [0x0701#16] 0x03#8 0x000#12 [(16, 0x00#8), (17, 0x00#8)] []))
    0x0001#14 0x35#8 0x000#12 [(16, 0x00#8), (17, 0x00#8)] [] = true := by
  decide +kernel
/-- V32. -/
theorem test_cpi_V32 : becomes
    (step (start 0x0000#14 [0x3800#16] 0x00#8 0x000#12 [(16, 0x7F#8)] []))
    0x0001#14 0x0D#8 0x000#12 [(16, 0x7F#8)] [] = true := by
  decide +kernel
/-- V33. -/
theorem test_and_V33 : becomes
    (step (start 0x0000#14 [0x2301#16] 0x09#8 0x000#12 [(16, 0xF0#8), (17, 0x0F#8)] []))
    0x0001#14 0x03#8 0x000#12 [(16, 0x00#8), (17, 0x0F#8)] [] = true := by
  decide +kernel
/-- V37. -/
theorem test_ori_V37 : becomes
    (step (start 0x0000#14 [0x6800#16] 0x00#8 0x000#12 [(16, 0x01#8)] []))
    0x0001#14 0x14#8 0x000#12 [(16, 0x81#8)] [] = true := by
  decide +kernel
/-- V38. -/
theorem test_eor_V38 : becomes
    (step (start 0x0000#14 [0x2701#16] 0x00#8 0x000#12 [(16, 0xAA#8), (17, 0x55#8)] []))
    0x0001#14 0x14#8 0x000#12 [(16, 0xFF#8), (17, 0x55#8)] [] = true := by
  decide +kernel
/-- V39. -/
theorem test_clr_V39 : becomes
    (step (start 0x0000#14 [0x2477#16] 0x00#8 0x000#12 [] []))
    0x0001#14 0x02#8 0x000#12 [(7, 0x00#8)] [] = true := by
  decide +kernel
/-- V41. -/
theorem test_com_V41 : becomes
    (step (start 0x0000#14 [0x9500#16] 0x00#8 0x000#12 [(16, 0x00#8)] []))
    0x0001#14 0x15#8 0x000#12 [(16, 0xFF#8)] [] = true := by
  decide +kernel
/-- V43. -/
theorem test_neg_V43 : becomes
    (step (start 0x0000#14 [0x9501#16] 0x00#8 0x000#12 [(16, 0x80#8)] []))
    0x0001#14 0x0D#8 0x000#12 [(16, 0x80#8)] [] = true := by
  decide +kernel
/-- V47. -/
theorem test_inc_V47 : becomes
    (step (start 0x0000#14 [0x9503#16] 0x01#8 0x000#12 [(16, 0x7F#8)] []))
    0x0001#14 0x0D#8 0x000#12 [(16, 0x80#8)] [] = true := by
  decide +kernel
/-- V49. -/
theorem test_dec_V49 : becomes
    (step (start 0x0000#14 [0x950A#16] 0x00#8 0x000#12 [(16, 0x80#8)] []))
    0x0001#14 0x18#8 0x000#12 [(16, 0x7F#8)] [] = true := by
  decide +kernel
/-- V52. -/
theorem test_tst_V52 : becomes
    (step (start 0x0000#14 [0x2300#16] 0x09#8 0x000#12 [(16, 0x80#8)] []))
    0x0001#14 0x15#8 0x000#12 [(16, 0x80#8)] [] = true := by
  decide +kernel
/-- V53. -/
theorem test_ser_V53 : becomes
    (step (start 0x0000#14 [0xEF0F#16] 0xFF#8 0x000#12 [] []))
    0x0001#14 0xFF#8 0x000#12 [(16, 0xFF#8)] [] = true := by
  decide +kernel
/-- V55. -/
theorem test_mul_V55 : becomes
    (step (start 0x0000#14 [0x9F01#16] 0x00#8 0x000#12 [(16, 0xFF#8), (17, 0xFF#8)] []))
    0x0001#14 0x01#8 0x000#12 [(0, 0x01#8), (1, 0xFE#8), (16, 0xFF#8), (17, 0xFF#8)] [] = true := by
  decide +kernel
/-- V60. -/
theorem test_muls_V60 : becomes
    (step (start 0x0000#14 [0x0201#16] 0x00#8 0x000#12 [(16, 0x80#8), (17, 0x80#8)] []))
    0x0001#14 0x00#8 0x000#12 [(0, 0x00#8), (1, 0x40#8), (16, 0x80#8), (17, 0x80#8)] [] = true := by
  decide +kernel
/-- V61. -/
theorem test_muls_V61 : becomes
    (step (start 0x0000#14 [0x0201#16] 0x00#8 0x000#12 [(16, 0xFF#8), (17, 0xFF#8)] []))
    0x0001#14 0x00#8 0x000#12 [(0, 0x01#8), (1, 0x00#8), (16, 0xFF#8), (17, 0xFF#8)] [] = true := by
  decide +kernel
/-- V64. -/
theorem test_mulsu_V64 : becomes
    (step (start 0x0000#14 [0x0301#16] 0x00#8 0x000#12 [(16, 0xFF#8), (17, 0xFF#8)] []))
    0x0001#14 0x01#8 0x000#12 [(0, 0x01#8), (1, 0xFF#8), (16, 0xFF#8), (17, 0xFF#8)] [] = true := by
  decide +kernel
/-- V69. -/
theorem test_fmul_V69 : becomes
    (step (start 0x0000#14 [0x0309#16] 0x00#8 0x000#12 [(16, 0x80#8), (17, 0x80#8)] []))
    0x0001#14 0x00#8 0x000#12 [(0, 0x00#8), (1, 0x80#8), (16, 0x80#8), (17, 0x80#8)] [] = true := by
  decide +kernel
/-- V73. -/
theorem test_fmuls_V73 : becomes
    (step (start 0x0000#14 [0x0381#16] 0x00#8 0x000#12 [(16, 0x80#8), (17, 0x80#8)] []))
    0x0001#14 0x00#8 0x000#12 [(0, 0x00#8), (1, 0x80#8), (16, 0x80#8), (17, 0x80#8)] [] = true := by
  decide +kernel
/-- V82. -/
theorem test_lsr_V82 : becomes
    (step (start 0x0000#14 [0x9506#16] 0x00#8 0x000#12 [(16, 0x01#8)] []))
    0x0001#14 0x1B#8 0x000#12 [(16, 0x00#8)] [] = true := by
  decide +kernel
/-- V84. -/
theorem test_asr_V84 : becomes
    (step (start 0x0000#14 [0x9505#16] 0x00#8 0x000#12 [(16, 0x80#8)] []))
    0x0001#14 0x0C#8 0x000#12 [(16, 0xC0#8)] [] = true := by
  decide +kernel
/-- V87. -/
theorem test_rol_V87 : becomes
    (step (start 0x0000#14 [0x1F00#16] 0x01#8 0x000#12 [(16, 0x80#8)] []))
    0x0001#14 0x19#8 0x000#12 [(16, 0x01#8)] [] = true := by
  decide +kernel
/-- V89. -/
theorem test_ror_V89 : becomes
    (step (start 0x0000#14 [0x9507#16] 0x01#8 0x000#12 [(16, 0x00#8)] []))
    0x0001#14 0x0C#8 0x000#12 [(16, 0x80#8)] [] = true := by
  decide +kernel
/-- V91. -/
theorem test_swap_V91 : becomes
    (step (start 0x0000#14 [0x9502#16] 0xFF#8 0x000#12 [(16, 0xA5#8)] []))
    0x0001#14 0xFF#8 0x000#12 [(16, 0x5A#8)] [] = true := by
  decide +kernel
/-- V97. -/
theorem test_bst_V97 : becomes
    (step (start 0x0000#14 [0xFB00#16] 0x40#8 0x000#12 [(16, 0xFE#8)] []))
    0x0001#14 0x00#8 0x000#12 [(16, 0xFE#8)] [] = true := by
  decide +kernel
/-- V98. -/
theorem test_bld_V98 : becomes
    (step (start 0x0000#14 [0xF903#16] 0x00#8 0x000#12 [(16, 0xFF#8)] []))
    0x0001#14 0x00#8 0x000#12 [(16, 0xF7#8)] [] = true := by
  decide +kernel
/-- V99. -/
theorem test_sec_V99 : becomes
    (step (start 0x0000#14 [0x9408#16] 0x00#8 0x000#12 [] []))
    0x0001#14 0x01#8 0x000#12 [] [] = true := by
  decide +kernel
/-- V105. -/
theorem test_sett_V105 : becomes
    (step (start 0x0000#14 [0x9468#16] 0x00#8 0x000#12 [] []))
    0x0001#14 0x40#8 0x000#12 [] [] = true := by
  decide +kernel
/-- V114. -/
theorem test_cli_V114 : becomes
    (step (start 0x0000#14 [0x94F8#16] 0xFF#8 0x000#12 [] []))
    0x0001#14 0x7F#8 0x000#12 [] [] = true := by
  decide +kernel
/-- V118. -/
theorem test_mov_V118 : becomes
    (step (start 0x0000#14 [0x2E0F#16] 0xFF#8 0x000#12 [(31, 0x5A#8)] []))
    0x0001#14 0xFF#8 0x000#12 [(0, 0x5A#8), (31, 0x5A#8)] [] = true := by
  decide +kernel
/-- V120. -/
theorem test_movw_V120 : becomes
    (step (start 0x0000#14 [0x010F#16] 0x00#8 0x000#12 [(30, 0x34#8), (31, 0x12#8)] []))
    0x0001#14 0x00#8 0x000#12 [(0, 0x34#8), (1, 0x12#8), (30, 0x34#8), (31, 0x12#8)] [] = true := by
  decide +kernel
/-- V122. -/
theorem test_ldi_V122 : becomes
    (step (start 0x0000#14 [0xE000#16] 0x00#8 0x000#12 [] []))
    0x0001#14 0x00#8 0x000#12 [(16, 0x00#8)] [] = true := by
  decide +kernel
/-- V124. -/
theorem test_ldX_V124 : becomes
    (step (start 0x0000#14 [0x900C#16] 0x00#8 0x000#12 [(26, 0x60#8), (27, 0x00#8)] [(0x60, 0xAB#8)]))
    0x0001#14 0x00#8 0x000#12 [(0, 0xAB#8), (26, 0x60#8), (27, 0x00#8)] [(0x60, 0xAB#8)] = true := by
  decide +kernel
/-- V133. -/
theorem test_ldXInc_V133 : becomes
    (step (start 0x0000#14 [0x900D#16] 0x00#8 0x000#12 [(26, 0xFF#8), (27, 0x00#8)] [(0xFF, 0x01#8)]))
    0x0001#14 0x00#8 0x000#12 [(0, 0x01#8), (26, 0x00#8), (27, 0x01#8)] [(0xFF, 0x01#8)] = true := by
  decide +kernel
/-- V141. -/
theorem test_lddY_V141 : becomes
    (step (start 0x0000#14 [0xAC0F#16] 0x00#8 0x000#12 [(28, 0x60#8), (29, 0x00#8)] [(0x9F, 0x42#8)]))
    0x0001#14 0x00#8 0x000#12 [(0, 0x42#8), (28, 0x60#8), (29, 0x00#8)] [(0x9F, 0x42#8)] = true := by
  decide +kernel
/-- V142. -/
theorem test_lddZ_V142 : becomes
    (step (start 0x0000#14 [0x8001#16] 0x00#8 0x000#12 [(0, 0x00#8), (30, 0xFF#8), (31, 0xFF#8)] []))
    0x0001#14 0x00#8 0x000#12 [(0, 0x00#8), (30, 0xFF#8), (31, 0xFF#8)] [] = true := by
  decide +kernel
/-- V143. -/
theorem test_ldZ_V143 : becomes
    (step (start 0x0000#14 [0x8050#16] 0x00#8 0x000#12 [(30, 0x60#8), (31, 0x00#8)] [(0x60, 0x07#8)]))
    0x0001#14 0x00#8 0x000#12 [(5, 0x07#8), (30, 0x60#8), (31, 0x00#8)] [(0x60, 0x07#8)] = true := by
  decide +kernel
/-- V144. -/
theorem test_lds_V144 : becomes
    (step (start 0x0000#14 [0x9100#16, 0x0060#16] 0x00#8 0x000#12 [] [(0x60, 0x12#8)]))
    0x0002#14 0x00#8 0x000#12 [(16, 0x12#8)] [(0x60, 0x12#8)] = true := by
  decide +kernel
/-- V148. -/
theorem test_stX_V148 : becomes
    (step (start 0x0000#14 [0x921C#16] 0x00#8 0x000#12 [(1, 0xEE#8), (26, 0x60#8), (27, 0x00#8)] []))
    0x0001#14 0x00#8 0x000#12 [(1, 0xEE#8), (26, 0x60#8), (27, 0x00#8)] [(0x60, 0xEE#8)] = true := by
  decide +kernel
/-- V159. -/
theorem test_stdY_V159 : becomes
    (step (start 0x0000#14 [0x83DA#16] 0x00#8 0x000#12 [(28, 0x60#8), (29, 0x00#8)] []))
    0x0001#14 0x00#8 0x000#12 [(28, 0x60#8), (29, 0x00#8)] [(0x62, 0x00#8)] = true := by
  decide +kernel
/-- V160. -/
theorem test_sts_V160 : becomes
    (step (start 0x0000#14 [0x93F0#16, 0x0060#16] 0x00#8 0x000#12 [(31, 0x9A#8)] []))
    0x0002#14 0x00#8 0x000#12 [(31, 0x9A#8)] [(0x60, 0x9A#8)] = true := by
  decide +kernel
/-- V167. -/
theorem test_lpmZ_V167 : becomes
    (step (start 0x0000#14 [0x9104#16] 0x00#8 0x000#12 [(30, 0x00#8), (31, 0x00#8)] []))
    0x0001#14 0x00#8 0x000#12 [(16, 0x04#8), (30, 0x00#8), (31, 0x00#8)] [] = true := by
  decide +kernel
/-- V174. -/
theorem test_inp_V174 : becomes
    (step (start 0x0000#14 [0xB70F#16] 0xA5#8 0x000#12 [] []))
    0x0001#14 0xA5#8 0x000#12 [(16, 0xA5#8)] [] = true := by
  decide +kernel
/-- V188. -/
theorem test_push_V188 : becomes
    (step (start 0x0000#14 [0x920F#16] 0x00#8 0x85F#12 [(0, 0xAA#8)] []))
    0x0001#14 0x00#8 0x85E#12 [(0, 0xAA#8)] [(0x85F, 0xAA#8)] = true := by
  decide +kernel
/-- V196. -/
theorem test_pop_V196 : becomes
    (step (start 0x0000#14 [0x900F#16] 0x00#8 0x85E#12 [] [(0x85F, 0x77#8)]))
    0x0001#14 0x00#8 0x85F#12 [(0, 0x77#8)] [(0x85F, 0x77#8)] = true := by
  decide +kernel
/-- V202. -/
theorem test_rjmp_V202 : becomes
    (step (start 0x0000#14 [0xCFFF#16] 0x00#8 0x000#12 [] []))
    0x0000#14 0x00#8 0x000#12 [] [] = true := by
  decide +kernel
/-- V207. -/
theorem test_ijmp_V207 : becomes
    (step (start 0x0000#14 [0x9409#16] 0x00#8 0x000#12 [(30, 0xFF#8), (31, 0x3F#8)] []))
    0x3FFF#14 0x00#8 0x000#12 [(30, 0xFF#8), (31, 0x3F#8)] [] = true := by
  decide +kernel
/-- V209. -/
theorem test_jmp_V209 : becomes
    (step (start 0x0000#14 [0x940C#16, 0x3FFF#16] 0x00#8 0x000#12 [] []))
    0x3FFF#14 0x00#8 0x000#12 [] [] = true := by
  decide +kernel
/-- V213. -/
theorem test_call_V213 : becomes
    (step (start 0x0100#14 [0x940E#16, 0x0200#16] 0x00#8 0x85F#12 [] []))
    0x0200#14 0x00#8 0x85D#12 [] [(0x85E, 0x01#8), (0x85F, 0x02#8)] = true := by
  decide +kernel
/-- V214. -/
theorem test_icall_V214 : becomes
    (step (start 0x0100#14 [0x9509#16] 0x00#8 0x85F#12 [(30, 0x34#8), (31, 0x12#8)] []))
    0x1234#14 0x00#8 0x85D#12 [(30, 0x34#8), (31, 0x12#8)] [(0x85E, 0x01#8), (0x85F, 0x01#8)] = true := by
  decide +kernel
/-- V219. -/
theorem test_ret_V219 : becomes
    (step (start 0x0000#14 [0x9508#16] 0x00#8 0x85D#12 [] [(0x85E, 0x12#8), (0x85F, 0x34#8)]))
    0x1234#14 0x00#8 0x85F#12 [] [(0x85E, 0x12#8), (0x85F, 0x34#8)] = true := by
  decide +kernel
/-- V226. -/
theorem test_brcs_V226 : becomes
    (step (start 0x0000#14 [0xF018#16] 0x01#8 0x000#12 [] []))
    0x0004#14 0x01#8 0x000#12 [] [] = true := by
  decide +kernel
/-- V232. -/
theorem test_brne_V232 : becomes
    (step (start 0x0000#14 [0xF419#16] 0xFD#8 0x000#12 [] []))
    0x0004#14 0xFD#8 0x000#12 [] [] = true := by
  decide +kernel
/-- V266. -/
theorem test_cp_V266 : becomes
    (step (start 0x0000#14 [0x1701#16] 0x00#8 0x000#12 [(16, 0x7F#8), (17, 0x80#8)] []))
    0x0001#14 0x0D#8 0x000#12 [(16, 0x7F#8), (17, 0x80#8)] [] = true := by
  decide +kernel
/-- V287. -/
theorem test_nop_V287 : becomes
    (step (start 0x0000#14 [0x0000#16] 0xFF#8 0x000#12 [] []))
    0x0001#14 0xFF#8 0x000#12 [] [] = true := by
  decide +kernel
/-- V288. -/
theorem test_sleep_V288 : becomes
    (step (start 0x0000#14 [0x9588#16] 0x00#8 0x000#12 [] []))
    0x0001#14 0x00#8 0x000#12 [] [] = true := by
  decide +kernel
/-- V291. -/
theorem test_wdr_V291 : becomes
    (step (start 0x0000#14 [0x95A8#16] 0x00#8 0x000#12 [] []))
    0x0001#14 0x00#8 0x000#12 [] [] = true := by
  decide +kernel

/-! ## Steps that the tables of vectors do not show alone -/

/-- V40, by its own name. -/
theorem test_cbr : nextIs (exec (.cbr 16 0xF0#8) (start 0#14 [] 0x00#8 0#12 [(16, 0xFF#8)] []))
    (fun t => t.reg 16 == 0x0F#8 && t.sreg == 0x00#8) = true := by decide +kernel
/-- V37, by the name SBR of its word. -/
theorem test_sbr : nextIs (exec (.sbr 16 0x80#8) (start 0#14 [] 0x00#8 0#12 [(16, 0x01#8)] []))
    (fun t => t.reg 16 == 0x81#8 && t.sreg == 0x14#8) = true := by decide +kernel
/-- R176 and 10_state.md R16: BRGE goes by S = 0, backwards by -2. -/
theorem test_brge : nextIs (exec (.brge 0x7E#7) (start 0#14 [] 0xEF#8 0#12 [] []))
    (fun t => t.pc == 0x3FFF#14) = true := by decide +kernel
/-- V275: CPSE passes a two-word CALL, which is not executed. -/
theorem test_cpse_two_words : becomes
    (step (start 0#14 [0x1000#16, 0x940E#16, 0x0100#16] 0x00#8 0x85F#12 [(0, 0x09#8)] []))
    3#14 0x00#8 0x85F#12 [(0, 0x09#8)] [] = true := by decide +kernel
/-- V285: a skip across the end of flash. -/
theorem test_cpse_wraps : becomes
    (step ((start 0#14 [0x0000#16] 0x00#8 0#12 [(0, 0x01#8)] []).storeProgWord 0x3FFF#14 0x1000#16
      |>.jumpTo 0x3FFF#14)) 1#14 0x00#8 0#12 [(0, 0x01#8)] [] = true := by decide +kernel
/-- V280: SBRS does not skip on a clear bit. -/
theorem test_sbrs : becomes (step (start 0#14 [0xFE00#16, 0#16] 0x00#8 0#12 [(0, 0xFE#8)] []))
    1#14 0x00#8 0#12 [(0, 0xFE#8)] [] = true := by decide +kernel
/-- 41_branch.md R162: SBRC skips on a clear bit. -/
theorem test_sbrc : becomes (step (start 0#14 [0xFC00#16, 0#16] 0x00#8 0#12 [(0, 0xFE#8)] []))
    2#14 0x00#8 0#12 [(0, 0xFE#8)] [] = true := by decide +kernel
/-- R164: SBIC reads the device once. -/
theorem test_sbic : nextIs (exec (.sbic 0x10#5 3) (start 0#14 [] 0x00#8 0#12 [] []))
    (fun t => t.draws == 1 && t.events == []) = true := by decide +kernel
/-- R165: so does SBIS. -/
theorem test_sbis : nextIs (exec (.sbis 0x10#5 3) (start 0#14 [] 0x00#8 0#12 [] []))
    (fun t => t.draws == 1 && t.events == []) = true := by decide +kernel
/-- 42_bit_and_bit_test.md R200: SBI is one device read and one device write. -/
theorem test_sbi : nextIs (exec (.sbi 0x18#5 7) (start 0#14 [] 0x00#8 0#12 [] []))
    (fun t => t.draws == 1 && t.events.length == 1) = true := by decide +kernel
/-- R201: so is CBI. -/
theorem test_cbi : nextIs (exec (.cbi 0x18#5 7) (start 0#14 [] 0x00#8 0#12 [] []))
    (fun t => t.draws == 1 && t.events.length == 1) = true := by decide +kernel
/-- V169: LPM with post-increment at the last byte of flash. -/
theorem test_lpm_z_inc : becomes
    (step ((start 0#14 [0x9105#16] 0x00#8 0#12 [(30, 0xFF#8), (31, 0x7F#8)] []).storeProgWord
      0x3FFF#14 0xBEEF#16))
    1#14 0x00#8 0#12 [(16, 0xBE#8), (30, 0x00#8), (31, 0x80#8)] [] = true := by decide +kernel
/-- V165: LPM reads the low byte of an even address. -/
theorem test_lpm : becomes
    (step (start 0#14 [0x95C8#16, 0x1234#16] 0x00#8 0#12 [(30, 0x02#8)] []))
    1#14 0x00#8 0#12 [(0, 0x34#8)] [] = true := by decide +kernel
/-- V170: LPM beyond the flash. -/
theorem test_lpm_beyond : faultsWith
    (step (start 0#14 [0x9104#16] 0x00#8 0#12 [(31, 0x80#8)] []))
    (.programAddressOutOfRange 0x8000#16) = true := by decide +kernel
/-- 40_data_transfer.md R107: LD Rd,Y+. -/
theorem test_ld_y_inc : nextIs (exec (.ldYInc 2)
    (start 0#14 [] 0x00#8 0#12 [(28, 0xFF#8), (29, 0x00#8)] [(0xFF, 0x5A#8)]))
    (fun t => t.reg 2 == 0x5A#8 && t.pair 28 == 0x0100#16) = true := by decide +kernel
/-- 40_data_transfer.md R112: LD Rd,-Z. -/
theorem test_ld_z_dec : nextIs (exec (.ldZDec 2)
    (start 0#14 [] 0x00#8 0#12 [(30, 0x00#8), (31, 0x01#8)] [(0xFF, 0x5A#8)]))
    (fun t => t.reg 2 == 0x5A#8 && t.pair 30 == 0x00FF#16) = true := by decide +kernel
/-- 40_data_transfer.md R123: ST Z+,Rr. -/
theorem test_st_z_inc : nextIs (exec (.stZInc 2)
    (start 0#14 [] 0x00#8 0#12 [(2, 0x77#8), (30, 0x5F#8), (31, 0x08#8)] []))
    (fun t => Memory.read .sram t.sram 0x85F == some 0x77#8 && t.pair 30 == 0x0860#16) = true := by
  decide +kernel
/-- 40_data_transfer.md R120: ST -Y,Rr. -/
theorem test_st_y_dec : nextIs (exec (.stYDec 2)
    (start 0#14 [] 0x00#8 0#12 [(2, 0x77#8), (28, 0x61#8), (29, 0x00#8)] []))
    (fun t => Memory.read .sram t.sram 0x60 == some 0x77#8 && t.pair 28 == 0x0060#16) = true := by
  decide +kernel
/-- V171: LPM Rd,Z+ into ZL. -/
theorem test_lpm_overlap : refusesWith
    (step (start 0#14 [0x91E5#16] 0x00#8 0#12 [] [])) .pointerRegisterOverlap = true := by
  decide +kernel
/-- V140: LD with post-increment at its own pointer. -/
theorem test_ld_own_pointer : refusesWith
    (step (start 0#14 [0x9009#16] 0x00#8 0#12 [(28, 0x1C#8)] [])) .pointerSelfAccess = true := by
  decide +kernel
/-- R141 of 40_data_transfer.md: SPM. -/
theorem test_spm : refusesWith (step (start 0#14 [0x95E8#16] 0x00#8 0#12 [] []))
    .selfProgrammingNotModelled = true := by decide +kernel
/-- 20_memory.md R49: OUT to SREG raises I with its delay. -/
theorem test_out_sreg : nextIs (exec (.out 0x3F#6 16) (start 0#14 [] 0x01#8 0#12 [(16, 0x82#8)] []))
    (fun t => t.sreg == 0x82#8 && t.irqDelay) = true := by decide +kernel
/-- 20_memory.md R50: OUT to a port is an event. -/
theorem test_out_port : nextIs (exec (.out 0x18#6 16) (start 0#14 [] 0x00#8 0#12 [(16, 0xA5#8)] []))
    (fun t => t.events == [.deviceWrite 0x18#6 0xA5#8]) = true := by decide +kernel
/-- V223: RETI from I = 0. -/
theorem test_reti : nextIs
    (step (start 0#14 [0x9518#16] 0x00#8 0x85D#12 [] [(0x85E, 0x00#8), (0x85F, 0x10#8)]))
    (fun t => t.pc == 0x10#14 && t.sreg == 0x80#8 && t.irqDelay && t.sp == 0x85F#12) = true := by
  decide +kernel
/-- R153: RCALL pushes pc + 1, low byte at the higher address. -/
theorem test_rcall : becomes (step (start 0x0123#14 [0xDFFE#16] 0x00#8 0x85F#12 [] []))
    0x0122#14 0x00#8 0x85D#12 [] [(0x85E, 0x01#8), (0x85F, 0x24#8)] = true := by decide +kernel
/-- V289 and V288: SLEEP sleeps if SE is 1. -/
theorem test_sleep : nextIs (exec .sleep { start 0#14 [] 0x00#8 0#12 [] [] with mcucr := 0x80#8 })
    (fun t => t.sleeping && t.pc == 1#14) = true := by decide +kernel
/-- V292: BREAK. -/
theorem test_break : nextIs (step (start 0#14 [0x9598#16] 0x00#8 0#12 [] []))
    (fun t => t.stopped && t.pc == 1#14) = true := by decide +kernel
/-- 42_bit_and_bit_test.md R218: SEI raises I with its delay. -/
theorem test_sei : nextIs (step (start 0#14 [0x9478#16] 0x00#8 0#12 [] []))
    (fun t => t.sreg == 0x80#8 && t.irqDelay) = true := by decide +kernel
/-- 60_exceptions.md R330, R327: of the requests 21, 7 and 3 the lowest vector is taken. -/
theorem test_interrupt : nextIs
    (step { start 0x0010#14 [0#16] 0x81#8 0x85F#12 [] [] with
      env := [{ reset := false, requests := [.spmReady, .timer1Capt, .int1] }] })
    (fun t => t.pc == 0x0004#14 && t.sreg == 0x01#8 && t.sp == 0x85D#12 &&
      t.events == [.interruptTaken .int1] && Memory.read .sram t.sram 0x85F == some 0x10#8 &&
      Memory.read .sram t.sram 0x85E == some 0x00#8) = true := by decide +kernel
/-- 60_exceptions.md R323: a request that never ends is served at the first boundary that can. -/
theorem test_unending_request : nextIs
    (step { start 0x0010#14 [0#16] 0x80#8 0x85F#12 [] [] with
      envRest := .always { reset := false, requests := [.adcDone] } })
    (fun t => t.pc == 0x0020#14 && t.envRest == .always { reset := false, requests := [.adcDone] } &&
      t.boundaries == 1) = true := by decide +kernel
/-- 30_encoding.md R84: a reserved word. -/
theorem test_reserved : refusesWith (step (start 0#14 [0x0001#16] 0x00#8 0#12 [] []))
    (.illegalInstruction 0x0001#16) = true := by decide +kernel
/-- 60_exceptions.md R323: after reset the environment is free at every boundary. -/
theorem test_reset_environment (k : Nat) : State.reset.inputAt k = drawnInput (0 + k) := rfl
/-- 70_reset_and_hazards.md R366: a branch to itself at END_PC ends the run at once, and asleep with
I = 0 does under `NoReset`. -/
theorem test_ends_at_end : endsIn 0x0010#14 (start 0x0010#14 [0xCFFF#16] 0#8 0#12 [] [])
    (start 0x0010#14 [0xCFFF#16] 0#8 0#12 [] []) :=
  ⟨0, rfl, .inl ⟨rfl, fun n => by cases n <;> decide +kernel⟩⟩
theorem test_ends_asleep :
    ({ start 0#14 [] 0#8 0#12 [] [] with sleeping := true } : State).final 0x0010#14 :=
  .inr (.inr ⟨rfl, by decide +kernel, fun _ => rfl⟩)
/-- 41_branch.md R189: JMP beyond the flash. -/
theorem test_jmp_beyond : faultsWith (step (start 0#14 [0x940C#16, 0x4000#16] 0x00#8 0#12 [] []))
    (.jumpTargetOutOfRange 0x4000) = true := by decide +kernel
/-- 20_memory.md R47 and R69: loads that find nothing. -/
theorem test_ld_nothing : faultsWith (exec (.lds 0 0x0860#16) State.reset)
    (.unimplementedDataAddress 0x0860#16) = true := by decide +kernel
theorem test_ld_unwritten : faultsWith (exec (.lds 0 0x0060#16) State.reset)
    (.readOfUnwrittenState 0x0060#16) = true := by decide +kernel
/-- The first step after the words of CALL $0123 are placed runs them. -/
theorem test_withFetchWord : faultsWith (step (State.reset.withFetchWord 32 0x0123940E))
    (.unimplementedDataAddress 0x0FFF#16) = true := by decide +kernel
/-- The table's bits of LDS R5,$0102, the second word above the first. -/
theorem test_decodeTableWord :
    decodeTableWord 32 0x01029050 = some (.lds 5 0x0102#16) ∧
    decodeTableWord 16 0x0C12 = some (.add 1 2) ∧ decodeTableWord 16 0x0001 = none := by
  decide +kernel

/-! ## Witnesses: states and operands that meet the hypotheses of each statement together -/

/-- A state with a listed SRAM and the stack at its end. -/
def sample (sp : BitVec 12) : State :=
  start 0x0010#14 [] 0x00#8 sp [(16, 0x5A#8)] [(0x60, 0x11#8), (0x85E, 0x12#8), (0x85F, 0x34#8)]

/-- The same with an instruction's words at pc, and with the given input at the boundary. -/
def sampleAt (w0 w1 : Word) (e : EnvInput) (sreg : Byte) : State :=
  { ((sample 0x85D#12).storeProgWord 0x0010#14 w0).storeProgWord 0x0011#14 w1 with
    sreg := sreg, env := [e, EnvInput.quiet] }

theorem witness_DecodingInvertsEncoding :
    (Instr.movw 0 30).wellFormed = true ∧ (Instr.adiw 24 63#6).wellFormed = true ∧
    (Instr.fmul 16 23).wellFormed = true ∧ (Instr.jmp 0x3FFFFF#22).wellFormed = true := by decide
theorem witness_EncodingInvertsDecoding :
    reads [0x0C12#16] (.add 1 2) = true ∧ reads [0x9050#16, 0x0102#16] (.lds 5 0x0102#16) = true := by
  decide +kernel
theorem witness_NoWordMatchesTwoRows :
    ∃ p, opcodeRows[(0 : Fin 86).val]? = some p ∧ p.matches p.value = true := by decide +kernel
theorem witness_ReservedWordsAreTheClassesOfR84 :
    reservedWord 0x0001#16 = true ∧ reservedWord 0x00FF#16 = true ∧ reservedWord 0xFFFF#16 = true ∧
    reservedWord 0x0000#16 = false ∧ reservedWord 0x95E8#16 = false := by decide +kernel
theorem witness_InstructionLengthsAreR74 :
    (Instr.call 0#22).wellFormed = true ∧ encode (.call 0#22) = [0x940E#16, 0x0000#16] ∧
    Instr.nop.wellFormed = true ∧ encode .nop = [0x0000#16] ∧ rowOf 0x0001#16 = none := by
  refine ⟨rfl, rfl, rfl, rfl, by decide +kernel⟩
/-- Each clause at both ends of its range. -/
theorem witness_MemReadIsR44 :
    (0x0000#16).toNat ≤ 0x1F ∧ (0x001F#16).toNat ≤ 0x1F ∧
    0x20 ≤ (0x0020#16).toNat ∧ (0x005F#16).toNat ≤ 0x5F ∧
    Memory.read .sram (sample 0#12).sram (0x0060#16).toNat = some 0x11#8 ∧
    Memory.read .sram (sample 0#12).sram (0x085F#16).toNat = some 0x34#8 ∧
    Memory.read .sram (sample 0#12).sram (0x0061#16).toNat = none ∧
    0x860 ≤ (0x0860#16).toNat ∧ 0x860 ≤ (0xFFFF#16).toNat := by decide +kernel
theorem witness_MemWriteIsR45 : Memory.wf .sram (sample 0#12).sram = true ∧
    0x60 ≤ (0x0060#16).toNat ∧ (0x085F#16).toNat ≤ 0x85F ∧ 0x860 ≤ (0x0860#16).toNat := by
  decide +kernel
theorem witness_IoSpaceIsR48AndR49 :
    (0x01#8).getLsbD 0 = true ∧ (0x02#8).setWidth 2 ≠ 0#2 ∧ (0xFE#8).getLsbD 0 = false ∧
    (0xFC#8).setWidth 2 = 0#2 ∧ (0x37#6 ≠ 0x3F#6 ∧ 0x37#6 ≠ 0x3E#6 ∧ 0x37#6 ≠ 0x3D#6 ∧ 0x37#6 ≠ 0x35#6) := by
  decide +kernel
theorem witness_ReturnAddressPushAndPop : Memory.wf .sram (sample 0x61#12).sram = true ∧
    0x61 ≤ (sample 0x61#12).sp.toNat ∧ 0x61 ≤ (sample 0x85F#12).sp.toNat ∧
    (sample 0x85F#12).sp.toNat ≤ 0x85F := by decide +kernel
theorem witness_StackWritesThatStop :
    (sample 0x5D#12).sp = 0x5D#12 ∧ (sample 0x5E#12).sp = 0x5E#12 ∧ (sample 0x5F#12).sp = 0x5F#12 ∧
    0x860 ≤ (sample 0x860#12).sp.toNat ∧ 0x860 ≤ (sample 0xFFF#12).sp.toNat ∧
    (sample 0x000#12).sp = 0x000#12 := by decide +kernel

/-! ### The step -/

/-- Each of the three ways in which no interrupt is taken. -/
theorem witness_StepRunsDecodedInstruction :
    runsAt (sampleAt 0x0000#16 0#16 { reset := false, requests := [.int0] } 0x00#8) .nop = true ∧
    runsAt { sampleAt 0x0000#16 0#16 { reset := false, requests := [.int0] } 0x80#8 with
      irqDelay := true } .nop = true ∧
    runsAt (sampleAt 0x0000#16 0#16 EnvInput.quiet 0x80#8) .nop = true := by decide +kernel
theorem witness_StepRunsEncodedInstruction :
    runsAt (sampleAt 0x940E#16 0x0100#16 EnvInput.quiet 0x80#8) (.call 0x0100#22) = true ∧
    (Instr.call 0x0100#22).wellFormed = true ∧
    encode (.call 0x0100#22) =
      [(sampleAt 0x940E#16 0x0100#16 EnvInput.quiet 0x80#8).progWord 0x0010#14,
       (sampleAt 0x940E#16 0x0100#16 EnvInput.quiet 0x80#8).progWord 0x0011#14] ∧
    (Instr.brlo 0#7).wellFormed = true ∧
    encode (.brlo 0#7) = [(sampleAt 0xF000#16 0#16 EnvInput.quiet 0x80#8).progWord 0x0010#14] := by
  decide +kernel
theorem witness_StepRefusesReservedWords :
    noEventAt (sampleAt 0x0001#16 0#16 EnvInput.quiet 0x80#8) = true ∧
    reservedWord ((sampleAt 0x0001#16 0#16 EnvInput.quiet 0x80#8).progWord 0x0010#14) = true := by
  decide +kernel

/-- Two requests with I = 1. -/
def requesting : State :=
  sampleAt 0#16 0#16 { reset := false, requests := [.spmReady, .int1] } 0x80#8

/-- The entry with the stack in SRAM, and an entry that does not go on. -/
theorem witness_StepTakesMostUrgentInterrupt :
    requesting.stopped = false ∧ requesting.sreg.getLsbD 7 = true ∧ requesting.irqDelay = false ∧
    (envInput requesting).reset = false ∧
    IntVector.int1 ∈ (envInput requesting).requests ∧
    (∀ m ∈ (envInput requesting).requests, vectorNumber .int1 ≤ vectorNumber m) ∧
    (pushedPC (afterInput requesting) requesting.pc).isSome = true ∧
    pushedPC { afterInput requesting with sp := 0x5F#12 } requesting.pc = none := by
  decide +kernel
theorem witness_InterruptEntryWithStackInSram : Memory.wf .sram requesting.sram = true ∧
    0x61 ≤ requesting.sp.toNat ∧ requesting.sp.toNat ≤ 0x85F := by decide +kernel
theorem witness_StepDeliversReset :
    (envInput (sampleAt 0#16 0#16 { reset := true, requests := [] } 0x80#8)).reset = true := by
  decide +kernel
theorem witness_StoppedAndSleepingCoresIdle :
    (envInput requesting).reset = false ∧
    ({ requesting with stopped := true } : State).stopped = true ∧
    ({ requesting with sleeping := true, sreg := 0x7F#8 } : State).sreg.getLsbD 7 = false ∧
    ({ requesting with sleeping := true, irqDelay := true } : State).irqDelay = true ∧
    (envInput (sampleAt 0#16 0#16 EnvInput.quiet 0x80#8)).requests = [] := by decide +kernel
theorem witness_RequestsWaitWhileNotInterruptible :
    (sample 0#12).sreg.getLsbD 7 = false ∧ ({ sample 0#12 with irqDelay := true } : State).irqDelay = true := by
  decide +kernel

/-- SEI (CLI) at pc and a NOP after it, with requests at both boundaries. -/
def twoWords (w : Word) (sreg : Byte) : State :=
  { sampleAt w 0x0000#16 EnvInput.quiet sreg with
    env := [{ reset := false, requests := [.int0] }, { reset := false, requests := [.int0] }] }

theorem witness_InstructionAfterSeiRunsFirst :
    (envInput (twoWords 0x9478#16 0x00#8)).reset = false ∧ (envInput (afterInput (twoWords 0x9478#16 0x00#8))).reset = false ∧
    (twoWords 0x9478#16 0x00#8).stopped = false ∧ (twoWords 0x9478#16 0x00#8).sleeping = false ∧
    (twoWords 0x9478#16 0x00#8).sreg.getLsbD 7 = false ∧
    (twoWords 0x9478#16 0x00#8).progWord 0x0010#14 = 0x9478#16 ∧
    reads [(twoWords 0x9478#16 0x00#8).progWord 0x0011#14] .nop = true := by decide +kernel
theorem witness_NoInterruptAfterCli :
    (envInput (twoWords 0x94F8#16 0x00#8)).reset = false ∧ (envInput (afterInput (twoWords 0x94F8#16 0x00#8))).reset = false ∧
    (twoWords 0x94F8#16 0x00#8).stopped = false ∧ (twoWords 0x94F8#16 0x00#8).sleeping = false ∧
    (twoWords 0x94F8#16 0x00#8).sreg.getLsbD 7 = false ∧
    (twoWords 0x94F8#16 0x00#8).progWord 0x0010#14 = 0x94F8#16 ∧
    reads [(twoWords 0x94F8#16 0x00#8).progWord 0x0011#14] .nop = true := by decide +kernel

/-! ### Invariants and frames -/

/-- A state with the invariant, a delay and a filled memory, whose step goes on. -/
theorem witness_EveryStepKeepsTheInvariant :
    invHolds { sampleAt 0xBF0F#16 0#16 EnvInput.quiet 0x80#8 with irqDelay := true } = true ∧
    nextIs (step { sampleAt 0xBF0F#16 0#16 EnvInput.quiet 0x80#8 with irqDelay := true })
      (fun t => t.sreg == 0x5A#8) = true := by decide +kernel
theorem witness_ProgramMemoryIsConstant :
    nextIs (step (sampleAt 0x0000#16 0#16 EnvInput.quiet 0x00#8)) (fun _ => true) = true := by
  decide +kernel
theorem witness_EventsOnlyGrow :
    nextIs (step (sampleAt 0xBB08#16 0#16 EnvInput.quiet 0x00#8)) (fun t => t.events.length == 1) = true := by
  decide +kernel
/-- Each clause: an addition, LSR, COM, a logic instruction, CLR, RETI. -/
theorem witness_FlagsWrittenAreThoseOfR19 :
    [Instr.add 16 17, .lsr 16, .com 16, .and 16 17, .andi 16 0#8, .or 16 17, .ori 16 0#8, .eor 16 17,
     .cbr 16 0#8, .sbr 16 0#8, .tst 16, .clr 16, .reti].all (fun i =>
      nextIs (exec i (sample 0x85D#12)) (fun _ => true) &&
      !(storedTo (sample 0x85D#12) i).contains 0x5F#16) = true := by decide +kernel
theorem witness_RegistersWrittenAreTheDestinations :
    nextIs (exec (.ldXInc 5) (start 0#14 [] 0#8 0#12 [(26, 0x60#8)] [(0x60, 0x11#8)])) (fun _ => true) = true ∧
    (6 : Reg) ∉ writtenRegs (.ldXInc 5) ∧
    regAddr 6 ∉ storedTo (start 0#14 [] 0#8 0#12 [(26, 0x60#8)] [(0x60, 0x11#8)]) (.ldXInc 5) := by
  decide +kernel
theorem witness_MemoryChangesOnlyWhereStored :
    Memory.wf .sram (sample 0x85F#12).sram = true ∧
    nextIs (exec (.push 16) (sample 0x85F#12)) (fun _ => true) = true ∧
    0x0060#16 ∉ storedTo (sample 0x85F#12) (.push 16) := by decide +kernel
/-- Each clause. -/
theorem witness_SpecialStateChangesOnlyWhereNamed :
    nextIs (exec (.sts 0x0060#16 16) (sample 0#12)) (fun _ => true) = true ∧
    movesSP (.sts 0x0060#16 16) = false ∧ 0x5D#16 ∉ storedTo (sample 0#12) (.sts 0x0060#16 16) ∧
    0x5E#16 ∉ storedTo (sample 0#12) (.sts 0x0060#16 16) ∧
    0x55#16 ∉ storedTo (sample 0#12) (.sts 0x0060#16 16) ∧
    0x5F#16 ∉ storedTo (sample 0#12) (.sts 0x0060#16 16) ∧
    (7 : BitNo) ∉ writtenFlags (.sts 0x0060#16 16) ∧
    (storedTo (sample 0#12) (.sts 0x0060#16 16)).all (fun a => !isDevice a) = true ∧
    readsData (.sts 0x0060#16 16) = false := by decide +kernel

/-! ### Instructions -/

theorem witness_RegisterMoves : (0 : Reg).val % 2 = 0 ∧ (30 : Reg).val % 2 = 0 := by decide
/-- A register, SREG, SPL, MCUCR, SRAM at both ends, and the two ways to hold no value. -/
theorem witness_PlainLoads :
    byteAt (sample 0x85D#12) 0x0010#16 = some 0x5A#8 ∧ byteAt (sample 0x85D#12) 0x001F#16 = some 0x00#8 ∧
    byteAt (sample 0x85D#12) 0x005F#16 = some 0x00#8 ∧ byteAt (sample 0x85D#12) 0x005D#16 = some 0x5D#8 ∧
    byteAt (sample 0x85D#12) 0x005E#16 = some 0x08#8 ∧ byteAt (sample 0x85D#12) 0x0055#16 = some 0x00#8 ∧
    (byteAt (sample 0x85D#12) 0x0020#16).isSome = true ∧
    byteAt (sample 0x85D#12) 0x0060#16 = some 0x11#8 ∧ byteAt (sample 0x85D#12) 0x085F#16 = some 0x34#8 ∧
    byteAt (sample 0x85D#12) 0x0061#16 = none ∧ byteAt (sample 0x85D#12) 0x0860#16 = none := by
  decide +kernel
/-- LD Rd,X+ at $0060 and LD Rd,-X at $0061, both clauses. -/
theorem witness_MovingPointerLoads :
    pairAt (start 0#14 [] 0#8 0#12 [(26, 0x60#8)] [(0x60, 0x11#8)]) 26 = 0x0060#16 ∧
    byteAt (start 0#14 [] 0#8 0#12 [(26, 0x60#8)] [(0x60, 0x11#8)]) 0x0060#16 = some 0x11#8 ∧
    byteAt (start 0#14 [] 0#8 0#12 [(26, 0x61#8)] []) 0x0060#16 = none ∧
    (5 : Reg) ≠ 26 ∧ (5 : Reg) ≠ 26 + 1 ∧ (0x0060#16).toNat ≠ (26 : Reg).val ∧
    (0x0060#16).toNat ≠ (26 : Reg).val + 1 := by decide +kernel
/-- Every place a store can lead to, and the three ways to stop. -/
theorem witness_PlainStores :
    (stored (sample 0#12) 0x0000#16 0x01#8).isSome = true ∧
    (stored (sample 0#12) 0x005F#16 0x80#8).isSome = true ∧
    (stored (sample 0#12) 0x005E#16 0xFF#8).isSome = true ∧
    (stored (sample 0#12) 0x0055#16 0xFF#8).isSome = true ∧
    (stored (sample 0#12) 0x0020#16 0xFF#8).isSome = true ∧
    (stored (sample 0#12) 0x0057#16 0xFE#8).isSome = true ∧
    (stored (sample 0#12) 0x085F#16 0xFF#8).isSome = true ∧
    stored (sample 0#12) 0x0057#16 0x01#8 = none ∧ stored (sample 0#12) 0x005B#16 0x02#8 = none ∧
    stored (sample 0#12) 0x0860#16 0x00#8 = none := by decide +kernel
theorem witness_MovingPointerStores :
    apartAt 26 5 0x0060#16 = true ∧ (stored (sample 0#12) 0x0060#16 0x00#8).isSome = true ∧
    apartAt 26 5 0x0860#16 = true ∧ stored (sample 0#12) 0x0860#16 0x00#8 = none := by decide +kernel
/-- An own address for a post-increment and for a pre-decrement. -/
theorem witness_PointerFormsRefusedByR134 :
    pairAt (start 0#14 [] 0#8 0#12 [(26, 0x1B#8)] []) 26 = 0x001B#16 ∧
    pairAt (start 0#14 [] 0#8 0#12 [(26, 0x1B#8)] []) 26 - 1#16 = 0x001A#16 ∧
    (0x001B#16).toNat = (26 : Reg).val + 1 ∧ (0x001A#16).toNat = (26 : Reg).val ∧
    (5 : Reg) ≠ 26 ∧ (5 : Reg) ≠ 26 + 1 := by decide +kernel
theorem witness_ProgramMemoryLoads :
    (pairAt (start 0#14 [] 0#8 0#12 [(30, 0xFF#8), (31, 0x7F#8)] []) 30).toNat < 0x8000 ∧
    0x8000 ≤ (pairAt (start 0#14 [] 0#8 0#12 [(31, 0x80#8)] []) 30).toNat ∧
    (29 : Reg) ≠ 30 ∧ (29 : Reg) ≠ 31 := by decide +kernel
theorem witness_InAndOut :
    byteAt (sample 0x85D#12) ((0x3F#6).setWidth 16 + 0x20#16) = some 0x00#8 ∧
    (stored (sample 0x85D#12) ((0x18#6).setWidth 16 + 0x20#16) 0x5A#8).isSome = true ∧
    stored (sample 0x85D#12) ((0x3B#6).setWidth 16 + 0x20#16) 0x5A#8 = none := by decide +kernel
theorem witness_PushAndPop :
    (pushed (sample 0x85D#12) 0x5A#8).isSome = true ∧ (pushed (sample 0x01F#12) 0x5A#8).isSome = true ∧
    byteAt { sample 0x85D#12 with sp := 0x85E#12 } 0x085E#16 = some 0x12#8 ∧
    byteAt { sample 0x85F#12 with sp := 0x860#12 } 0x0860#16 = none := by decide +kernel
theorem witness_Jumps : (0x3FFF#22).toNat < 16384 ∧
    (pairAt (start 0#14 [] 0#8 0#12 [(30, 0xFF#8), (31, 0x3F#8)] []) 30).toNat < 16384 := by
  decide +kernel
theorem witness_JumpTargetsBeyondFlashStop : 16384 ≤ (0x4000#22).toNat ∧
    16384 ≤ (pairAt (start 0#14 [] 0#8 0#12 [(31, 0x40#8)] []) 30).toNat := by decide +kernel
/-- In SRAM, across SRAM and SREG, and in the registers. -/
theorem witness_Calls : (pushedPC (sample 0x85F#12) 0x0011#14).isSome = true ∧
    (pushedPC (sample 0x060#12) 0x0011#14).isSome = true ∧
    (pushedPC (sample 0x001#12) 0x0012#14).isSome = true ∧ (0x3FFF#22).toNat < 16384 ∧
    (pairAt (sample 0x85F#12) 30).toNat < 16384 := by decide +kernel
theorem witness_PushesThatStop : pushed (sample 0x860#12) 0x5A#8 = none ∧
    pushed (sample 0x05D#12) 0x5A#8 = none ∧ pushedPC (sample 0x05F#12) 0x0011#14 = none ∧
    pushedPC (sample 0x000#12) 0x0012#14 = none ∧ (pairAt (sample 0x000#12) 30).toNat < 16384 := by
  decide +kernel
/-- Both bytes in SRAM; the first, then the second without a value. -/
theorem witness_Returns :
    byteAt { sample 0x85D#12 with sp := 0x85E#12 } 0x085E#16 = some 0x12#8 ∧
    byteAt { afterRead { sample 0x85D#12 with sp := 0x85E#12 } 0x085E#16 with sp := 0x85F#12 }
      0x085F#16 = some 0x34#8 ∧
    byteAt { sample 0x085F#12 with sp := 0x860#12 } 0x0860#16 = none ∧
    byteAt { sample 0x85E#12 with sp := 0x85F#12 } 0x085F#16 ≠ none ∧
    byteAt { afterRead { sample 0x85E#12 with sp := 0x85F#12 } 0x085F#16 with sp := 0x860#12 }
      0x0860#16 = none := by decide +kernel
/-- Skips, shifts, arithmetic and the like hold of every state: their hypotheses only name values. -/
theorem witness_named_values : ∃ (s next past : State) (a b : Byte), a = s.regs[(0 : Reg)] ∧
    b = s.regs[(1 : Reg)] ∧ next = { s with pc := s.pc + 1#14 } ∧ past = { next with pc := 0#14 } :=
  ⟨State.reset, _, _, _, _, rfl, rfl, rfl, rfl⟩

end Sys2Proof.Tests
end

section
/-! PROOFS. What every instruction leaves unchanged. `Frame i s t` says it of one pair of states,
field by field; every shared operation has one lemma that it keeps a frame, and `exec_framed` puts the
lemmas together for all instructions. The statements about flags, registers and the special state
are then fields of the frame. -/
namespace Sys2Proof.Machine
open Sys2Proof.Claims

/-! ## The frame of an instruction -/

/-- `t` differs from `s` only in what the instruction `i`, executed in `s`, may write by the tables
of Claims.lean: its registers, its flags and the data addresses it stores to, SRAM and program
memory included. pc may be anything. -/
structure Frame (i : Instr) (s t : State) : Prop where
  regs : ∀ r, r ∉ writtenRegs i → regAddr r ∉ storedTo s i → t.reg r = s.reg r
  flags : 0x5F#16 ∉ storedTo s i → ∀ b, b ∉ writtenFlags i → bitOf t.sreg b = bitOf s.sreg b
  irqDelay : 7 ∉ writtenFlags i → 0x5F#16 ∉ storedTo s i → t.irqDelay = s.irqDelay
  sp : movesSP i = false → 0x5D#16 ∉ storedTo s i → 0x5E#16 ∉ storedTo s i → t.sp = s.sp
  mcucr : 0x55#16 ∉ storedTo s i → t.mcucr = s.mcucr
  sleeping : i ≠ .sleep → t.sleeping = s.sleeping
  stopped : i ≠ .brk → t.stopped = s.stopped
  sram : Memory.wf .sram s.sram = true → Memory.wf .sram t.sram = true ∧
    ∀ a : DataAddr, a ∉ storedTo s i →
      Memory.read .sram t.sram a.toNat = Memory.read .sram s.sram a.toNat
  events : i ≠ .wdr → (∀ a ∈ storedTo s i, isDevice a = false) →
    t.events = s.events ∧ t.ioWritten = s.ioWritten
  draws : readsData i = false → t.draws = s.draws
  flash : t.flash = s.flash
  env : t.env = s.env
  envRest : t.envRest = s.envRest
  boundaries : t.boundaries = s.boundaries
  params : t.params = s.params

/-- Every state in which an operation goes on lies in the frame of `i` from `s`. -/
def Framed (i : Instr) (s : State) (x : Res State) : Prop := ∀ t, x = .next t → Frame i s t

variable {i : Instr} {s u t : State}

theorem Frame.same : Frame i s s where
  regs _ _ _ := rfl
  flags _ _ _ := rfl
  irqDelay _ _ := rfl
  sp _ _ _ := rfl
  mcucr _ := rfl
  sleeping _ := rfl
  stopped _ := rfl
  sram h := ⟨h, fun _ _ => rfl⟩
  events _ _ := ⟨rfl, rfl⟩
  draws _ := rfl
  flash := rfl
  env := rfl
  envRest := rfl
  boundaries := rfl
  params := rfl

theorem Frame.framed (k : Frame i s t) : Framed i s (.next t) := by
  rintro _ ⟨⟩
  exact k

theorem framed_refused (e : Refusal) : Framed i s (.refused e) := fun _ h => nomatch h

theorem framed_bind {α : Type} {x : Res α} {f : α → Res State}
    (h : ∀ a, x = .next a → Framed i s (f a)) : Framed i s (x.bind f) := by
  intro t ht
  obtain ⟨a, ha, hf⟩ := bind_eq_next.1 ht
  exact h a ha t hf

/-! ## Registers, pc and SREG -/

theorem Frame.advance (k : Frame i s u) (n : Nat) : Frame i s (u.advance n) := { k with }

theorem Frame.jumpTo (k : Frame i s u) (a : ProgAddr) : Frame i s (u.jumpTo a) := { k with }

theorem Frame.setReg (k : Frame i s u) {d : Reg} (hd : d ∈ writtenRegs i) (v : Byte) :
    Frame i s (u.setReg d v) :=
  { k with
    regs := fun r hr ha => by
      have hne : r ≠ d := fun e => hr (e ▸ hd)
      rw [setReg_reg, if_neg hne, k.regs r hr ha] }

theorem Frame.setPair (k : Frame i s u) {d : Reg} (hd : [d, d + 1] ⊆ writtenRegs i)
    (v : BitVec 16) : Frame i s (u.setPair d v) :=
  (k.setReg (hd (by simp)) _).setReg (hd (by simp)) _

/-- A write of SREG that keeps the flags outside the table of R19. -/
theorem Frame.setSreg (k : Frame i s u) {v : Byte}
    (hv : ∀ b, b ∉ writtenFlags i → bitOf v b = bitOf u.sreg b) : Frame i s (u.setSreg v) :=
  { k with flags := fun ha b hb => (hv b hb).trans (k.flags ha b hb) }

/-- The same with the delay of I: where I is kept, there is no change of I from 0 to 1. -/
theorem Frame.writeSreg (k : Frame i s u) {v : Byte}
    (hv : ∀ b, b ∉ writtenFlags i → bitOf v b = bitOf u.sreg b) : Frame i s (u.writeSreg v) :=
  { k with
    flags := fun ha b hb => (hv b hb).trans (k.flags ha b hb)
    irqDelay := fun hi ha => by
      have hI : bitOf v flagI = bitOf u.sreg flagI := hv flagI hi
      rw [writeSreg_irqDelay, hI, Bool.not_and_self, Bool.or_false, k.irqDelay hi ha] }

/-! ### The rows of the table of R19 -/

theorem Frame.setHSVNZC (k : Frame i s u) (hf : writtenFlags i = [5, 4, 3, 2, 1, 0]) (x : Alu) :
    Frame i s (u.setSreg (writeHSVNZC u.sreg x)) :=
  k.setSreg fun b hb => by
    simp only [hf, List.mem_cons, not_or] at hb
    simp [bitOf_writeHSVNZC, flagC, flagZ, flagN, flagV, flagS, flagH, hb]

theorem Frame.setSVNZC (k : Frame i s u) (hf : writtenFlags i = [4, 3, 2, 1, 0]) (v n z c : Bool) :
    Frame i s (u.setSreg (writeSVNZC u.sreg v n z c)) :=
  k.setSreg fun b hb => by
    simp only [hf, List.mem_cons, not_or] at hb
    simp [bitOf_writeSVNZC, flagC, flagZ, flagN, flagV, flagS, hb]

theorem Frame.setSVNZ (k : Frame i s u) (hf : writtenFlags i = [4, 3, 2, 1]) (v n z : Bool) :
    Frame i s (u.setSreg (writeSVNZ u.sreg v n z)) :=
  k.setSreg fun b hb => by
    simp only [hf, List.mem_cons, not_or] at hb
    simp [bitOf_writeSVNZ, flagZ, flagN, flagV, flagS, hb]

theorem Frame.setZC (k : Frame i s u) (hf : writtenFlags i = [1, 0]) (z c : Bool) :
    Frame i s (u.setSreg (writeZC u.sreg z c)) :=
  k.setSreg fun b hb => by
    simp only [hf, List.mem_cons, not_or] at hb
    simp [bitOf_writeZC, flagC, flagZ, hb]

/-- A byte with bit b put keeps the flags outside a table row that lists b. -/
theorem bitOf_withBit_of_written {b : BitNo} (hb : b ∈ writtenFlags i) (v : Byte) (x : Bool) :
    ∀ c, c ∉ writtenFlags i → bitOf (withBit v b x) c = bitOf v c := fun c hc => by
  have hne : c ≠ b := fun e => hc (e ▸ hb)
  rw [bitOf_withBit, if_neg hne]

/-! ## Reads of I/O and data space: the count of draws -/

theorem Frame.ioRead (k : Frame i s u) (hr : readsData i = true) (a : IoAddr) :
    Frame i s (ioRead u a).2 := by
  rcases ioRead_state u a with e | e <;> rw [e]
  · exact k
  · exact { k with draws := fun hn => absurd (hr.symm.trans hn) (by decide) }

theorem Frame.memRead (k : Frame i s u) (hr : readsData i = true) {a : DataAddr}
    {p : Byte × State} (h : memRead u a = .next p) : Frame i s p.2 := by
  rcases memRead_state h with e | e <;> rw [e]
  · exact k
  · exact { k with draws := fun hn => absurd (hr.symm.trans hn) (by decide) }

/-! ## Writes of I/O and data space -/

theorem ioDataAddr_toNat (a : IoAddr) : (ioDataAddr a).toNat = a.toNat + 32 := by
  have := a.isLt
  simp only [ioDataAddr, ioBase, BitVec.toNat_add, BitVec.toNat_setWidth, BitVec.toNat_ofNat]
  omega

/-- An I/O register that the core does not own is a device's (20_memory.md R50). -/
theorem isDevice_ioDataAddr {a : IoAddr} (h : coreOwned a = false) :
    isDevice (ioDataAddr a) = true := by
  revert a
  decide

theorem regAddr_eq {a : DataAddr} {r : Reg} (h : a.toNat = r.val) : regAddr r = a := by
  rw [regAddr, ← h, BitVec.ofNat_toNat, BitVec.setWidth_eq]

theorem ioDataAddr_eq {a : DataAddr} {p : IoAddr} (h : a.toNat = p.toNat + 32) :
    ioDataAddr p = a :=
  BitVec.eq_of_toNat_eq ((ioDataAddr_toNat p).trans h.symm)

/-- A write of an I/O register changes what lies at its data address, and a device's record. -/
theorem Frame.ioWrite (k : Frame i s u) {a : IoAddr} {v : Byte} (ha : ioDataAddr a ∈ storedTo s i)
    (h : ioWrite u a v = .next t) : Frame i s t := by
  rcases ioWrite_next h with ⟨rfl, rfl⟩ | ⟨rfl, rfl⟩ | ⟨rfl, rfl⟩ | ⟨rfl, rfl⟩ | ⟨hdev, _, rfl⟩
  · exact { k with
      flags := fun hn => absurd ha hn
      irqDelay := fun _ hn => absurd ha hn }
  · exact { k with sp := fun _ _ hn => absurd ha hn }
  · exact { k with sp := fun _ hn _ => absurd ha hn }
  · exact { k with mcucr := fun hn => absurd ha hn }
  · have hd := isDevice_ioDataAddr hdev
    exact { k with events := fun _ hn => absurd (hd.symm.trans (hn _ ha)) (by decide) }

theorem Frame.memWrite (k : Frame i s u) {a : DataAddr} {v : Byte} (ha : a ∈ storedTo s i)
    (h : memWrite u a v = .next t) : Frame i s t := by
  rcases memWrite_next h with ⟨r, hr, rfl⟩ | ⟨p, hp, hw⟩ | ⟨_, _, rfl⟩
  · have hra := regAddr_eq hr
    exact { k with
      regs := fun q hq hqa => by
        have hne : q ≠ r := fun e => hqa (e ▸ hra ▸ ha)
        rw [setReg_reg, if_neg hne, k.regs q hq hqa] }
  · exact k.ioWrite (ioDataAddr_eq hp ▸ ha) hw
  · exact { k with
      sram := fun hwf => by
        obtain ⟨hu, hread⟩ := k.sram hwf
        refine ⟨wf_write _ _ _ _ hu, fun b hb => ?_⟩
        have hne : b.toNat ≠ a.toNat := fun e => hb (BitVec.eq_of_toNat_eq e ▸ ha)
        rw [read_write _ _ _ _ _ hu, if_neg hne, hread b hb] }

/-! ## The stack -/

/-- A write of data space moves SP at SPL's and SPH's addresses only (20_memory.md R49). -/
theorem memWrite_sp {a : DataAddr} {v : Byte} (h : memWrite s a v = .next t) (hl : a ≠ 0x5D#16)
    (hh : a ≠ 0x5E#16) : t.sp = s.sp := by
  rcases memWrite_next h with ⟨_, _, rfl⟩ | ⟨p, hp, hw⟩ | ⟨_, _, rfl⟩
  · rfl
  · rcases ioWrite_next hw with ⟨_, rfl⟩ | ⟨rfl, _⟩ | ⟨rfl, _⟩ | ⟨_, rfl⟩ | ⟨_, _, rfl⟩
    · rfl
    · exact absurd (ioDataAddr_eq hp).symm hh
    · exact absurd (ioDataAddr_eq hp).symm hl
    · rfl
    · rfl
  · rfl

/-- A push moves SP down by one, wherever the byte goes: R56 of 20_memory.md refuses the push onto
SP. -/
theorem push8_sp {v : Byte} (h : push8 s v = .next t) : t.sp = s.sp - 1#12 := by
  obtain ⟨hl, hh, u, hu, rfl⟩ := push8_next h
  have hsp : u.sp = s.sp := memWrite_sp hu
    (fun e => hl (by simp only [State.spAddr] at e; bv_omega))
    (fun e => hh (by simp only [State.spAddr] at e; bv_omega))
  exact congrArg (· - 1#12) hsp

theorem Frame.movedSP (k : Frame i s u) (hm : movesSP i = true) (v : BitVec 12) :
    Frame i s { u with sp := v } :=
  { k with sp := fun hn => absurd (hm.symm.trans hn) (by decide) }

theorem Frame.push8 (k : Frame i s u) (hm : movesSP i = true) (ha : u.spAddr ∈ storedTo s i)
    {v : Byte} (h : push8 u v = .next t) : Frame i s t := by
  obtain ⟨_, _, w, hw, rfl⟩ := push8_next h
  exact (k.memWrite ha hw).movedSP hm _

theorem Frame.pop8 (k : Frame i s u) (hm : movesSP i = true) (hr : readsData i = true)
    {p : Byte × State} (h : pop8 u = .next p) : Frame i s p.2 :=
  (k.movedSP hm _).memRead hr (pop8_next h)

theorem Frame.pushPC (hm : movesSP i = true)
    (hs : storedTo s i = [s.spAddr, (s.sp - 1#12).setWidth 16]) {a : ProgAddr}
    (h : pushPC s a = .next t) : Frame i s t := by
  obtain ⟨u, hlow, hhigh⟩ := pushPC_next h
  have hu : u.spAddr = (s.sp - 1#12).setWidth 16 := congrArg (BitVec.setWidth 16) (push8_sp hlow)
  have klow : Frame i s u := Frame.same.push8 hm (by simp [hs]) hlow
  exact klow.push8 hm (by simp [hs, hu]) hhigh

theorem Frame.popPC (hm : movesSP i = true) (hr : readsData i = true) {p : ProgAddr × State}
    (h : popPC s = .next p) : Frame i s p.2 := by
  obtain ⟨hi, lo, h1, h2, rfl⟩ := popPC_next h
  exact (Frame.same.pop8 hm hr h1).pop8 hm hr h2

/-! ## The operand forms of the instructions -/

theorem framed_loadFrom {d : Reg} (hd : d ∈ writtenRegs i) (hr : readsData i = true) (a : DataAddr)
    (n : Nat) : Framed i s (loadFrom s d a n) :=
  framed_bind fun _ h => (((Frame.same.memRead hr h).setReg hd _).advance n).framed

theorem framed_storeTo {a : DataAddr} (ha : a ∈ storedTo s i) (r : Reg) (n : Nat) :
    Framed i s (storeTo s r a n) :=
  framed_bind fun _ h => ((Frame.same.memWrite ha h).advance n).framed

theorem framed_guardPointer {p : Pointer} {r : Reg} {a : DataAddr} {x : Res State}
    (h : Framed i s x) : Framed i s (guardPointer p r a x) :=
  fun t ht =>
    have ⟨_, _, hx⟩ := guardPointer_next ht
    h t hx

section
variable {p : Pointer} {d r : Reg}

theorem framed_loadPostInc (hd : d ∈ writtenRegs i)
    (hp : [pointerLow p, pointerLow p + 1] ⊆ writtenRegs i) (hr : readsData i = true) :
    Framed i s (loadPostInc s p d) :=
  framed_guardPointer <| framed_bind fun _ h =>
    ((((Frame.same.memRead hr h).setPair hp _).setReg hd _).advance 1).framed

theorem framed_loadPreDec (hd : d ∈ writtenRegs i)
    (hp : [pointerLow p, pointerLow p + 1] ⊆ writtenRegs i) (hr : readsData i = true) :
    Framed i s (loadPreDec s p d) :=
  framed_guardPointer <| framed_bind fun _ h =>
    ((((Frame.same.memRead hr h).setPair hp _).setReg hd _).advance 1).framed

theorem framed_storePostInc (hp : [pointerLow p, pointerLow p + 1] ⊆ writtenRegs i)
    (ha : s.pointer p ∈ storedTo s i) : Framed i s (storePostInc s p r) :=
  framed_guardPointer <| framed_bind fun _ h =>
    (((Frame.same.memWrite ha h).setPair hp _).advance 1).framed

theorem framed_storePreDec (hp : [pointerLow p, pointerLow p + 1] ⊆ writtenRegs i)
    (ha : s.pointer p - 1#16 ∈ storedTo s i) : Framed i s (storePreDec s p r) :=
  framed_guardPointer <| framed_bind fun _ h =>
    (((Frame.same.memWrite ha h).setPair hp _).advance 1).framed

end

/-- LPM Rd,Z+: the overlap of Rd with Z is refused, else Rd and Z are written
(40_data_transfer.md R129). -/
theorem framed_lpmZInc (d : Reg) : Framed (.lpmZInc d) s (execLpmZInc d s) := by
  unfold execLpmZInc
  split
  · exact framed_refused _
  · have hp : [30, 31] ⊆ writtenRegs (.lpmZInc d) := List.subset_cons_self _ _
    exact framed_bind fun v _ =>
      (((Frame.same.setPair hp _).setReg (.head _) v).advance 1).framed

theorem framed_callTo (hm : movesSP i = true)
    (hs : storedTo s i = [s.spAddr, (s.sp - 1#12).setWidth 16]) (a k : ProgAddr) :
    Framed i s (callTo s a k) :=
  framed_bind fun _ h => ((Frame.pushPC hm hs h).jumpTo k).framed

/-- SBI and CBI: one read and one write of the same I/O register (42_bit_and_bit_test.md R200). -/
theorem framed_ioUpdate (hr : readsData i = true) {a : IoAddr} (ha : ioDataAddr a ∈ storedTo s i)
    (f : Byte → Byte) :
    Framed i s ((ioWrite (ioRead s a).2 a (f (ioRead s a).1)).bind fun t => .next (t.advance 1)) :=
  framed_bind fun _ h => (((Frame.same.ioRead hr a).ioWrite ha h).advance 1).framed

/-! ## Results with flags -/

theorem Frame.aluResult {d : Reg} (hd : d ∈ writtenRegs i)
    (hf : writtenFlags i = [5, 4, 3, 2, 1, 0]) (x : Alu) : Frame i s (aluResult s d x) :=
  ((Frame.same.setReg hd _).setHSVNZC hf x).advance 1

theorem Frame.aluFlags (hf : writtenFlags i = [5, 4, 3, 2, 1, 0]) (x : Alu) :
    Frame i s (aluFlags s x) :=
  (Frame.same.setHSVNZC hf x).advance 1

theorem Frame.logicResult {d : Reg} (hd : d ∈ writtenRegs i) (hf : writtenFlags i = [4, 3, 2, 1])
    (v : Byte) : Frame i s (logicResult s d v) :=
  ((Frame.same.setReg hd v).setSVNZ hf _ _ _).advance 1

theorem Frame.shiftRightResult {d : Reg} (hd : d ∈ writtenRegs i)
    (hf : writtenFlags i = [4, 3, 2, 1, 0]) (a v : Byte) :
    Frame i s (shiftRightResult s d a v) :=
  ((Frame.same.setReg hd v).setSVNZC hf _ _ _ _).advance 1

theorem Frame.productResult (hd : [0, 1] ⊆ writtenRegs i) (hf : writtenFlags i = [1, 0])
    (p v : BitVec 16) : Frame i s (productResult s p v) :=
  ((Frame.same.setPair hd v).setZC hf _ _).advance 1

theorem Frame.putFlag {b : BitNo} (hb : b ∈ writtenFlags i) (x : Bool) :
    Frame i s (putFlag s b x) :=
  (Frame.same.writeSreg (bitOf_withBit_of_written hb s.sreg x)).advance 1

/-! ## MCU control (44_mcu_control.md) -/

theorem framed_sleep : Framed .sleep s (execSleep s) := by
  have k : Frame .sleep s (s.advance 1) := Frame.same.advance 1
  rintro _ ⟨⟩
  split
  · exact { k with sleeping := fun hn => absurd rfl hn }
  · exact k

theorem framed_brk : Framed .brk s (execBrk s) := by
  have k : Frame .brk s (s.advance 1) := Frame.same.advance 1
  rintro _ ⟨⟩
  split
  · exact k
  · exact { k with stopped := fun hn => absurd rfl hn }

theorem framed_wdr : Framed .wdr s (execWdr s) :=
  Frame.framed { (Frame.same : Frame .wdr s s) with events := fun hn => absurd rfl hn }

/-! ## Every instruction -/

/-- Every instruction keeps its frame, by the operation that is its meaning. -/
theorem exec_framed (i : Instr) (s : State) : Framed i s (exec i s) :=
  match i with
  | .mov _ _ | .ldi _ _ | .swap _ | .bld _ _ | .ser _ =>
    ((Frame.same.setReg (.head _) _).advance 1).framed
  | .movw _ _ => ((Frame.same.setPair (.refl _) _).advance 1).framed
  | .ldX _ | .ldY _ | .lddY _ _ | .ldZ _ | .lddZ _ _ | .lds _ _ =>
    framed_loadFrom (.head _) rfl _ _
  | .ldXInc _ | .ldYInc _ | .ldZInc _ =>
    framed_loadPostInc (.head _) (List.subset_cons_self _ _) rfl
  | .ldXDec _ | .ldYDec _ | .ldZDec _ =>
    framed_loadPreDec (.head _) (List.subset_cons_self _ _) rfl
  | .stX _ | .stY _ | .stdY _ _ | .stZ _ | .stdZ _ _ | .sts _ _ =>
    framed_storeTo (.head _) _ _
  | .stXInc _ | .stYInc _ | .stZInc _ => framed_storePostInc (.refl _) (.head _)
  | .stXDec _ | .stYDec _ | .stZDec _ => framed_storePreDec (.refl _) (.head _)
  | .lpmR0 | .lpmZ _ => framed_bind fun _ _ => ((Frame.same.setReg (.head _) _).advance 1).framed
  | .lpmZInc d => framed_lpmZInc d
  | .spm => framed_refused _
  | .inp _ _ => (((Frame.same.ioRead rfl _).setReg (.head _) _).advance 1).framed
  | .out _ _ => framed_bind fun _ h => ((Frame.same.ioWrite (.head _) h).advance 1).framed
  | .push _ => framed_bind fun _ h => ((Frame.same.push8 rfl (.head _) h).advance 1).framed
  | .pop _ =>
    framed_bind fun _ h => (((Frame.same.pop8 rfl rfl h).setReg (.head _) _).advance 1).framed
  | .ijmp | .jmp _ => framed_bind fun _ _ => (Frame.same.jumpTo _).framed
  | .rcall _ => framed_callTo rfl rfl _ _
  | .icall | .call _ => framed_bind fun _ _ => framed_callTo rfl rfl _ _
  | .ret => framed_bind fun _ h => ((Frame.popPC rfl rfl h).jumpTo _).framed
  | .reti => framed_bind fun _ h =>
    (((Frame.popPC rfl rfl h).writeSreg (bitOf_withBit_of_written (.head _) _ _)).jumpTo _).framed
  | .rjmp _ | .cpse _ _ | .sbrc _ _ | .sbrs _ _ | .brbs _ _ | .brbc _ _
  | .breq _ | .brne _ | .brcs _ | .brcc _ | .brsh _ | .brlo _ | .brmi _
  | .brpl _ | .brge _ | .brlt _ | .brhs _ | .brhc _ | .brts _ | .brtc _
  | .brvs _ | .brvc _ | .brie _ | .brid _ => (Frame.same.jumpTo _).framed
  | .sbic _ _ | .sbis _ _ => ((Frame.same.ioRead rfl _).jumpTo _).framed
  | .cp _ _ | .cpc _ _ | .cpi _ _ => (Frame.aluFlags rfl _).framed
  | .sbi _ b => framed_ioUpdate rfl (.head _) (withBit · b true)
  | .cbi _ b => framed_ioUpdate rfl (.head _) (withBit · b false)
  | .lsr _ | .ror _ | .asr _ => (Frame.shiftRightResult (.head _) rfl _ _).framed
  | .bset _ | .bclr _ | .sec | .clc | .sen | .cln | .sez | .clz | .sei
  | .cli | .ses | .cls | .sev | .clv | .sett | .clt | .seh | .clh =>
    (Frame.putFlag (.head _) _).framed
  | .bst _ _ => ((Frame.same.setSreg (bitOf_withBit_of_written (.head _) _ _)).advance 1).framed
  | .add _ _ | .adc _ _ | .sub _ _ | .subi _ _ | .sbc _ _ | .sbci _ _ | .neg _
  | .lsl _ | .rol _ => (Frame.aluResult (.head _) rfl _).framed
  | .adiw _ _ | .sbiw _ _ =>
    (((Frame.same.setPair (.refl _) _).setSVNZC rfl _ _ _ _).advance 1).framed
  | .and _ _ | .andi _ _ | .or _ _ | .ori _ _ | .eor _ _ | .sbr _ _
  | .cbr _ _ => (Frame.logicResult (.head _) rfl _).framed
  | .com _ => (((Frame.same.setReg (.head _) _).setSVNZC rfl _ _ _ _).advance 1).framed
  | .inc _ | .dec _ | .clr _ =>
    (((Frame.same.setReg (.head _) _).setSVNZ rfl _ _ _).advance 1).framed
  | .tst _ => ((Frame.same.setSVNZ rfl _ _ _).advance 1).framed
  | .mul _ _ | .muls _ _ | .mulsu _ _ | .fmul _ _ | .fmuls _ _ | .fmulsu _ _ =>
    (Frame.productResult (.refl _) rfl _ _).framed
  | .nop => (Frame.same.advance 1).framed
  | .sleep => framed_sleep
  | .wdr => framed_wdr
  | .brk => framed_brk

/-! ## The flags with a value in the table of R19 -/

/-- The logic instructions write the flags of their result (43_arithmetic_logic.md section 4). -/
theorem logic_sreg {d r : Reg} {k : Byte}
    (hi : i = .and d r ∨ i = .andi d k ∨ i = .or d r ∨ i = .ori d k ∨ i = .eor d r ∨
      i = .cbr d k ∨ i = .sbr d k ∨ i = .tst d) (h : exec i s = .next t) :
    ∃ v, t.sreg = writeLogic s.sreg v := by
  rcases hi with rfl | rfl | rfl | rfl | rfl | rfl | rfl | rfl <;> cases h <;> exact ⟨_, rfl⟩

theorem logic_clears_v (sreg v : Byte) : bitOf (writeLogic sreg v) flagV = false := by
  simp [writeLogic, bitOf_writeSVNZ, flagZ, flagN, flagV]

/-- The result of LSR has bit 7 clear, and N is that bit (42_bit_and_bit_test.md R203). -/
theorem lsr_clears_n {d : Reg} (h : exec (.lsr d) s = .next t) : bitOf t.sreg flagN = false := by
  cases h
  change bitOf (writeSVNZC s.sreg _ (s.reg d >>> 1).msb _ _) flagN = false
  have hmsb : (s.reg d >>> 1).msb = false := by simp [BitVec.msb_ushiftRight]
  simp [bitOf_writeSVNZC, hmsb, flagC, flagZ, flagN]

theorem com_clears_v_sets_c {d : Reg} (h : exec (.com d) s = .next t) :
    bitOf t.sreg flagV = false ∧ bitOf t.sreg flagC = true := by
  cases h
  simp [bitOf_writeSVNZC, flagC, flagZ, flagN, flagV]

theorem clr_sets_z_clears_s_v_n {d : Reg} (h : exec (.clr d) s = .next t) :
    bitOf t.sreg flagS = false ∧ bitOf t.sreg flagV = false ∧ bitOf t.sreg flagN = false ∧
      bitOf t.sreg flagZ = true := by
  cases h
  simp [bitOf_writeSVNZ, flagZ, flagN, flagV, flagS]

theorem reti_sets_i (h : exec .reti s = .next t) : bitOf t.sreg flagI = true := by
  obtain ⟨p, _, ⟨⟩⟩ := bind_eq_next.1 h
  simp

/-! ## Reset -/

/-- SRAM holds no value at reset (20_memory.md R69). -/
theorem memRead_reset_sram {a : DataAddr} (h1 : 0x60 ≤ a.toNat) (h2 : a.toNat ≤ 0x85F) :
    memRead State.reset a = .fault (.readOfUnwrittenState a) := by
  simp [memRead, dataPlace_sram h1 h2, State.reset, Memory.read, listedAt, unlisted]

/-- The first push at SP = 0 goes to R0, and SP wraps to $FFF (70_reset_and_hazards.md R362). -/
theorem push8_reset (v : Byte) : push8 State.reset v =
    .next { State.reset with regs := State.reset.regs.set 0 v, sp := 0xFFF#12 } := by
  have hplace : dataPlace State.reset.spAddr = .register 0 := dataPlace_register (by decide)
  have hsp : ¬ (State.reset.sp = 0x05D#12 ∨ State.reset.sp = 0x05E#12) := by decide
  rw [push8, if_neg hsp, memWrite, hplace]
  rfl

end Sys2Proof.Machine
end

section
/-! PROOFS. The statements about the frames of all instructions and about reset. -/
namespace Sys2Proof.Proofs
open Sys2Proof.Machine

/-- Settles O28: the frame's flags, and the rows of the table that give a value. -/
theorem flagsWrittenAreThoseOfR19 : Obligations.FlagsWrittenAreThoseOfR19 := by
  intro i s t h hs
  refine ⟨(exec_framed i s t h).flags hs, ?lsr, ?com, ?logic, ?clr, ?reti⟩
  case lsr => rintro d rfl; exact lsr_clears_n h
  case com => rintro d rfl; exact com_clears_v_sets_c h
  case logic =>
    intro d r k hi
    obtain ⟨v, hv⟩ := logic_sreg hi h
    rw [hv]
    exact logic_clears_v s.sreg v
  case clr => rintro d rfl; exact clr_sets_z_clears_s_v_n h
  case reti => rintro rfl; exact reti_sets_i h

/-- Settles O29: the registers of the frame. -/
theorem registersWrittenAreTheDestinations : Obligations.RegistersWrittenAreTheDestinations :=
  fun i s t h => (exec_framed i s t h).regs

/-- Settles O31: the fields of the frame that are neither a register, a flag nor memory. -/
theorem specialStateChangesOnlyWhereNamed : Obligations.SpecialStateChangesOnlyWhereNamed := by
  intro i s t h
  have k := exec_framed i s t h
  exact ⟨k.sp, k.mcucr, k.sleeping, k.stopped, k.irqDelay, k.events, k.draws, k.env, k.envRest,
    k.boundaries, k.params⟩

/-- Settles O24: the memories are empty and so canonical, and nothing is delayed. -/
theorem resetHasTheInvariant : Obligations.ResetHasTheInvariant :=
  ⟨rfl, rfl, rfl, rfl⟩

/-- Settles O27: each field by evaluation, the two memory accesses by the lemmas above. -/
theorem resetValues : Obligations.ResetValues :=
  ⟨rfl, rfl, rfl, rfl, rfl, rfl, rfl, rfl, fun _ => memRead_reset_sram, push8_reset⟩

end Sys2Proof.Proofs
end


section
/-! PROOFS. What the model records and what it delays. `Frame` says which places an instruction may
change; `Kept n s t` says what it can make of them: memories still canonical and within their ranges,
the record of events only longer, at most n device reads, and an interrupt delay only where I rose.
Every shared operation has one lemma, `exec_keeps` puts them together for all instructions, and
`step_next` says once what a step can do. -/
namespace Sys2Proof.Machine
open Sys2Proof.Claims

variable {i : Instr} {n : Nat} {s u t : State}

/-! ## What an operation keeps -/

/-- `t` comes from `s` by operations that keep the invariant's memories, lengthen the record of
events, read at most `n` devices and delay interrupts only where they raise I. -/
structure Kept (n : Nat) (s t : State) : Prop where
  sram : s.sramOk = true → t.sramOk = true
  ioWritten : s.ioWrittenOk = true → t.ioWrittenOk = true
  delay : t.irqDelay = s.irqDelay ∨ (s.flag flagI = false ∧ t.flag flagI = true)
  events : s.events <+: t.events
  draws_ge : s.draws ≤ t.draws
  draws_le : t.draws ≤ s.draws + n

/-- Every state in which an operation goes on is kept from `s`. -/
def Keeping (n : Nat) (s : State) (x : Res State) : Prop := ∀ t, x = .next t → Kept n s t

theorem Kept.same : Kept n s s where
  sram h := h
  ioWritten h := h
  delay := .inl rfl
  events := List.prefix_rfl
  draws_ge := le_rfl
  draws_le := Nat.le_add_right _ _

theorem Kept.keeping (k : Kept n s t) : Keeping n s (.next t) := by
  rintro _ ⟨⟩
  exact k

theorem keeping_refused (e : Refusal) : Keeping n s (.refused e) := fun _ h => nomatch h

theorem keeping_bind {α : Type} {x : Res α} {f : α → Res State}
    (h : ∀ a, x = .next a → Keeping n s (f a)) : Keeping n s (x.bind f) := by
  intro t ht
  obtain ⟨a, ha, hf⟩ := bind_eq_next.1 ht
  exact h a ha t hf

theorem keeping_guardPointer {p : Pointer} {r : Reg} {a : DataAddr} {x : Res State}
    (h : Keeping n s x) : Keeping n s (guardPointer p r a x) :=
  fun t ht =>
    have ⟨_, _, hx⟩ := guardPointer_next ht
    h t hx

/-! ## Registers, pc, SREG and SP -/

/-- The fields that `Kept` speaks of, but for SREG, are those of `s`. -/
structure SameRecords (s t : State) : Prop where
  sram : t.sram = s.sram
  ioWritten : t.ioWritten = s.ioWritten
  irqDelay : t.irqDelay = s.irqDelay
  events : t.events = s.events

/-- A change outside the records, with device reads counted. -/
theorem SameRecords.kept (h : SameRecords s t) (hge : s.draws ≤ t.draws)
    (hle : t.draws ≤ s.draws + n) : Kept n s t where
  sram hs := by rwa [State.sramOk, h.sram]
  ioWritten hs := by rwa [State.ioWrittenOk, h.ioWritten]
  delay := .inl h.irqDelay
  events := h.events ▸ List.prefix_rfl
  draws_ge := hge
  draws_le := hle

/-- A change of registers, pc, SREG, SP, MCUCR and the sleeping and stopped bits keeps all. -/
theorem keeping_core (h : SameRecords s t) (hd : t.draws = s.draws) : Keeping n s (.next t) :=
  (h.kept hd.ge (hd ▸ Nat.le_add_right _ _)).keeping

theorem Kept.advance (k : Kept n s u) (m : Nat) : Kept n s (u.advance m) := { k with }

theorem Kept.jumpTo (k : Kept n s u) (a : ProgAddr) : Kept n s (u.jumpTo a) := { k with }

theorem Kept.setReg (k : Kept n s u) (d : Reg) (v : Byte) : Kept n s (u.setReg d v) := { k with }

theorem Kept.setPair (k : Kept n s u) (d : Reg) (v : BitVec 16) : Kept n s (u.setPair d v) :=
  { k with }

theorem Kept.movedSP (k : Kept n s u) (v : BitVec 12) : Kept n s { u with sp := v } := { k with }

/-- A write of all of SREG: the delay is that of an I which rises (60_exceptions.md R325). -/
theorem Kept.writeSreg (k : Kept n s u) (hd : u.irqDelay = s.irqDelay) (hI : u.sreg = s.sreg)
    (v : Byte) : Kept n s (u.writeSreg v) :=
  { k with
    delay := by
      have hold : bitOf u.sreg flagI = s.flag flagI := congrArg (bitOf · flagI) hI
      have hnew : (u.writeSreg v).flag flagI = bitOf v flagI := rfl
      rw [writeSreg_irqDelay, hd, hold, hnew]
      cases s.flag flagI <;> cases bitOf v flagI <;> simp }

/-! ## Reads of I/O and data space -/

/-- A read changes the count of device reads at most: the form in which `ioRead_state` and
`memRead_state` say it. -/
theorem Kept.afterRead (k : Kept n s u) (h : t = u ∨ t = { u with draws := u.draws + 1 }) :
    Kept (n + 1) s t := by
  rcases h with rfl | rfl
  · exact { k with draws_le := Nat.le_succ_of_le k.draws_le }
  · exact { k with
      draws_ge := Nat.le_succ_of_le k.draws_ge
      draws_le := Nat.succ_le_succ k.draws_le }

theorem Kept.ioRead (k : Kept n s u) (a : IoAddr) : Kept (n + 1) s (ioRead u a).2 :=
  k.afterRead (ioRead_state u a)

theorem Kept.memRead (k : Kept n s u) {a : DataAddr} {p : Byte × State}
    (h : memRead u a = .next p) : Kept (n + 1) s p.2 :=
  k.afterRead (memRead_state h)

theorem Kept.pop8 (k : Kept n s u) {p : Byte × State} (h : pop8 u = .next p) :
    Kept (n + 1) s p.2 :=
  (k.movedSP _).memRead (pop8_next h)

theorem Kept.popPC {p : ProgAddr × State} (h : popPC s = .next p) : Kept 2 s p.2 := by
  obtain ⟨hi, lo, h1, h2, rfl⟩ := popPC_next h
  exact ((Kept.same (n := 0)).pop8 h1).pop8 h2

/-- A pop writes neither SREG nor the delay of I. -/
theorem pop8_sreg {p : Byte × State} (h : pop8 s = .next p) :
    p.2.irqDelay = s.irqDelay ∧ p.2.sreg = s.sreg := by
  rcases memRead_state (pop8_next h) with e | e <;> rw [e] <;> exact ⟨rfl, rfl⟩

theorem popPC_sreg {p : ProgAddr × State} (h : popPC s = .next p) :
    p.2.irqDelay = s.irqDelay ∧ p.2.sreg = s.sreg := by
  obtain ⟨hi, lo, h1, h2, rfl⟩ := popPC_next h
  obtain ⟨d1, e1⟩ := pop8_sreg h1
  obtain ⟨d2, e2⟩ := pop8_sreg h2
  exact ⟨d2.trans d1, e2.trans e1⟩

theorem ioRead_sreg (s : State) (a : IoAddr) :
    (ioRead s a).2.irqDelay = s.irqDelay ∧ (ioRead s a).2.sreg = s.sreg := by
  rcases ioRead_state s a with e | e <;> rw [e] <;> exact ⟨rfl, rfl⟩

/-! ## Writes of I/O and data space -/

/-- A write within SRAM keeps it canonical and within its 2048 addresses. -/
theorem sramOk_write (h : s.sramOk = true) {a : Nat} (h1 : 96 ≤ a) (h2 : a ≤ 0x85F) (v : Byte) :
    ({ s with sram := Memory.write .sram s.sram a v } : State).sramOk = true := by
  simp only [State.sramOk, listedWithin, Bool.and_eq_true] at h ⊢
  obtain ⟨hwf, hin⟩ := h
  refine ⟨wf_write _ _ _ _ hwf, all_write _ hin ?_⟩
  simp only [Bool.and_eq_true, decide_eq_true_eq]
  omega

/-- A device write that R49 does not refuse keeps the record of device writes. -/
theorem ioWrittenOk_deviceWrite (h : s.ioWrittenOk = true) {a : IoAddr} {v : Byte}
    (hdev : coreOwned a = false) (hg : guardedWrite a v = false) :
    (deviceWrite s a v).ioWrittenOk = true := by
  simp only [State.ioWrittenOk, deviceWrite_ioWritten, Bool.and_eq_true] at h ⊢
  obtain ⟨hwf, hcells⟩ := h
  refine ⟨wf_write _ _ _ _ hwf, all_write _ hcells ?_⟩
  simp [deviceCellOk, BitVec.ofNat_toNat, hdev, hg, a.isLt]

theorem Kept.ioWrite (k : Kept n s u) (hd : u.irqDelay = s.irqDelay) (hI : u.sreg = s.sreg)
    {a : IoAddr} {v : Byte} (h : ioWrite u a v = .next t) : Kept n s t := by
  rcases ioWrite_next h with ⟨_, rfl⟩ | ⟨_, rfl⟩ | ⟨_, rfl⟩ | ⟨_, rfl⟩ | ⟨hdev, hg, rfl⟩
  · exact k.writeSreg hd hI v
  · exact { k with }
  · exact { k with }
  · exact { k with }
  · exact { k with
      ioWritten := fun hs => ioWrittenOk_deviceWrite (k.ioWritten hs) hdev hg
      events := k.events.trans (List.prefix_append _ _) }

theorem Kept.memWrite (k : Kept n s u) (hd : u.irqDelay = s.irqDelay) (hI : u.sreg = s.sreg)
    {a : DataAddr} {v : Byte} (h : memWrite u a v = .next t) : Kept n s t := by
  rcases memWrite_next h with ⟨r, _, rfl⟩ | ⟨p, _, hw⟩ | ⟨h1, h2, rfl⟩
  · exact k.setReg r v
  · exact k.ioWrite hd hI hw
  · exact { k with sram := fun hs => sramOk_write (k.sram hs) h1 h2 v }

/-! ## The stack -/

/-- A write of data space reaches SREG and the delay of I at SREG's address only. -/
theorem memWrite_sreg {a : DataAddr} {v : Byte} (h : memWrite s a v = .next t) (ha : a ≠ 0x5F#16) :
    t.irqDelay = s.irqDelay ∧ t.sreg = s.sreg := by
  rcases memWrite_next h with ⟨_, _, rfl⟩ | ⟨p, hp, hw⟩ | ⟨_, _, rfl⟩
  · exact ⟨rfl, rfl⟩
  · rcases ioWrite_next hw with ⟨rfl, _⟩ | ⟨_, rfl⟩ | ⟨_, rfl⟩ | ⟨_, rfl⟩ | ⟨_, _, rfl⟩
    · exact absurd (ioDataAddr_eq hp).symm ha
    all_goals exact ⟨rfl, rfl⟩
  · exact ⟨rfl, rfl⟩

/-- A push that a second push follows does not write SREG: after a push onto SREG, SP names SPH, and
R56 of 20_memory.md refuses the next push. -/
theorem push8_sreg_of_push8 {v w : Byte} (h : push8 s v = .next u) (h2 : push8 u w = .next t) :
    u.irqDelay = s.irqDelay ∧ u.sreg = s.sreg := by
  have hsp := push8_sp h
  obtain ⟨_, hsph, _⟩ := push8_next h2
  obtain ⟨_, _, x, hx, rfl⟩ := push8_next h
  have ha : s.spAddr ≠ 0x5F#16 := fun e => hsph <| by
    simp only [State.spAddr] at e hsp
    bv_omega
  obtain ⟨hd, hI⟩ := memWrite_sreg hx ha
  exact ⟨hd, hI⟩

theorem Kept.push8 (k : Kept n s u) (hd : u.irqDelay = s.irqDelay) (hI : u.sreg = s.sreg)
    {v : Byte} (h : push8 u v = .next t) : Kept n s t := by
  obtain ⟨_, _, w, hw, rfl⟩ := push8_next h
  exact (k.memWrite hd hI hw).movedSP _

theorem Kept.pushPC {a : ProgAddr} (h : pushPC s a = .next t) : Kept n s t := by
  obtain ⟨u, hlow, hhigh⟩ := pushPC_next h
  obtain ⟨hd, hI⟩ := push8_sreg_of_push8 hlow hhigh
  exact (Kept.same.push8 rfl rfl hlow).push8 hd hI hhigh

/-! ## The operand forms of the instructions -/

section
variable (s)

theorem keeping_loadFrom (d : Reg) (a : DataAddr) (m : Nat) :
    Keeping (n + 1) s (loadFrom s d a m) :=
  keeping_bind fun _ h => (((Kept.same.memRead h).setReg d _).advance m).keeping

theorem keeping_storeTo (r : Reg) (a : DataAddr) (m : Nat) : Keeping n s (storeTo s r a m) :=
  keeping_bind fun _ h => ((Kept.same.memWrite rfl rfl h).advance m).keeping

variable (p : Pointer) (d : Reg)

theorem keeping_loadPostInc : Keeping (n + 1) s (loadPostInc s p d) :=
  keeping_guardPointer <| keeping_bind fun _ h =>
    ((((Kept.same.memRead h).setPair _ _).setReg d _).advance 1).keeping

theorem keeping_loadPreDec : Keeping (n + 1) s (loadPreDec s p d) :=
  keeping_guardPointer <| keeping_bind fun _ h =>
    ((((Kept.same.memRead h).setPair _ _).setReg d _).advance 1).keeping

theorem keeping_storePostInc : Keeping n s (storePostInc s p d) :=
  keeping_guardPointer <| keeping_bind fun _ h =>
    (((Kept.same.memWrite rfl rfl h).setPair _ _).advance 1).keeping

theorem keeping_storePreDec : Keeping n s (storePreDec s p d) :=
  keeping_guardPointer <| keeping_bind fun _ h =>
    (((Kept.same.memWrite rfl rfl h).setPair _ _).advance 1).keeping

theorem keeping_callTo (a k : ProgAddr) : Keeping n s (callTo s a k) :=
  keeping_bind fun _ h => ((Kept.pushPC h).jumpTo k).keeping

/-- SBI and CBI: one read and one write of the same I/O register (42_bit_and_bit_test.md R200). -/
theorem keeping_ioUpdate (a : IoAddr) (f : Byte → Byte) : Keeping (n + 1) s
    ((ioWrite (ioRead s a).2 a (f (ioRead s a).1)).bind fun t => .next (t.advance 1)) :=
  have ⟨hd, hI⟩ := ioRead_sreg s a
  keeping_bind fun _ h => (((Kept.same.ioRead a).ioWrite hd hI h).advance 1).keeping

theorem keeping_putFlag (b : BitNo) (x : Bool) : Keeping n s (.next (putFlag s b x)) :=
  ((Kept.same.writeSreg rfl rfl _).advance 1).keeping

theorem keeping_interruptReturn : Keeping 2 s (interruptReturn s) :=
  keeping_bind fun _ h =>
    have ⟨hd, hI⟩ := popPC_sreg h
    (((Kept.popPC h).writeSreg hd hI _).jumpTo _).keeping

theorem keeping_lpmZInc : Keeping n s (execLpmZInc d s) := by
  unfold execLpmZInc
  split
  · exact keeping_refused _
  · exact keeping_bind fun _ _ => keeping_core ⟨rfl, rfl, rfl, rfl⟩ rfl

theorem keeping_sleep : Keeping n s (execSleep s) := by
  unfold execSleep
  split <;> exact keeping_core ⟨rfl, rfl, rfl, rfl⟩ rfl

theorem keeping_brk : Keeping n s (execBrk s) := by
  unfold execBrk
  split <;> exact keeping_core ⟨rfl, rfl, rfl, rfl⟩ rfl

theorem keeping_wdr : Keeping n s (execWdr s) :=
  Kept.keeping { (Kept.same : Kept n s s) with events := List.prefix_append _ _ }

end

/-! ## Every instruction -/

/-- What every instruction keeps, by the operation that is its meaning; no instruction reads more
than two devices. -/
theorem exec_keeps (i : Instr) (s : State) : Keeping 2 s (exec i s) :=
  match i with
  | .ldX _ | .ldY _ | .lddY _ _ | .ldZ _ | .lddZ _ _ | .lds _ _ => keeping_loadFrom s _ _ _
  | .ldXInc _ | .ldYInc _ | .ldZInc _ => keeping_loadPostInc s _ _
  | .ldXDec _ | .ldYDec _ | .ldZDec _ => keeping_loadPreDec s _ _
  | .stX _ | .stY _ | .stdY _ _ | .stZ _ | .stdZ _ _ | .sts _ _ => keeping_storeTo s _ _ _
  | .stXInc _ | .stYInc _ | .stZInc _ => keeping_storePostInc s _ _
  | .stXDec _ | .stYDec _ | .stZDec _ => keeping_storePreDec s _ _
  | .lpmR0 | .lpmZ _ => keeping_bind fun _ _ => keeping_core ⟨rfl, rfl, rfl, rfl⟩ rfl
  | .lpmZInc d => keeping_lpmZInc s d
  | .spm => keeping_refused _
  | .inp _ a => (((Kept.same.ioRead a).setReg _ _).advance 1).keeping
  | .sbic a _ | .sbis a _ => ((Kept.same.ioRead (a.setWidth 6)).jumpTo _).keeping
  | .out _ _ => keeping_bind fun _ h => ((Kept.same.ioWrite rfl rfl h).advance 1).keeping
  | .sbi _ b => keeping_ioUpdate s _ (withBit · b true)
  | .cbi _ b => keeping_ioUpdate s _ (withBit · b false)
  | .push _ => keeping_bind fun _ h => ((Kept.same.push8 rfl rfl h).advance 1).keeping
  | .pop _ => keeping_bind fun _ h => (((Kept.same.pop8 h).setReg _ _).advance 1).keeping
  | .rcall _ => keeping_callTo s _ _
  | .icall | .call _ => keeping_bind fun _ _ => keeping_callTo s _ _
  | .ijmp | .jmp _ => keeping_bind fun _ _ => keeping_core ⟨rfl, rfl, rfl, rfl⟩ rfl
  | .ret => keeping_bind fun _ h => ((Kept.popPC h).jumpTo _).keeping
  | .reti => keeping_interruptReturn s
  | .bset _ | .bclr _ | .sec | .clc | .sen | .cln | .sez | .clz | .sei
  | .cli | .ses | .cls | .sev | .clv | .sett | .clt | .seh | .clh => keeping_putFlag s _ _
  | .sleep => keeping_sleep s
  | .wdr => keeping_wdr s
  | .brk => keeping_brk s
  | .mov _ _ | .movw _ _ | .ldi _ _ | .swap _ | .bst _ _ | .bld _ _ | .ser _ | .nop
  | .rjmp _ | .cpse _ _ | .sbrc _ _ | .sbrs _ _ | .brbs _ _ | .brbc _ _
  | .breq _ | .brne _ | .brcs _ | .brcc _ | .brsh _ | .brlo _ | .brmi _
  | .brpl _ | .brge _ | .brlt _ | .brhs _ | .brhc _ | .brts _ | .brtc _
  | .brvs _ | .brvc _ | .brie _ | .brid _ | .cp _ _ | .cpc _ _ | .cpi _ _
  | .lsl _ | .lsr _ | .rol _ | .ror _ | .asr _
  | .add _ _ | .adc _ _ | .adiw _ _ | .sub _ _ | .subi _ _ | .sbc _ _ | .sbci _ _ | .sbiw _ _
  | .and _ _ | .andi _ _ | .or _ _ | .ori _ _ | .eor _ _ | .com _ | .neg _ | .sbr _ _ | .cbr _ _
  | .inc _ | .dec _ | .tst _ | .clr _
  | .mul _ _ | .muls _ _ | .mulsu _ _ | .fmul _ _ | .fmuls _ _ | .fmulsu _ _ =>
    keeping_core ⟨rfl, rfl, rfl, rfl⟩ rfl

/-! ## The step -/

/-- Everything an entry into an interrupt can do when it goes on (60_exceptions.md R327). -/
theorem interruptEntry_next {v : IntVector} (h : interruptEntry s v = .next t) :
    ∃ u, pushPC s s.pc = .next u ∧ t = { u with
      sreg := withBit u.sreg flagI false
      sleeping := false
      pc := vectorAddress u v
      events := u.events ++ [.interruptTaken v] } := by
  obtain ⟨u, hu, ⟨⟩⟩ := bind_eq_next.1 h
  exact ⟨u, hu, rfl⟩

/-- An interrupt is taken only where interrupts are not held off (60_exceptions.md R324). -/
theorem interruptible_of_event {e : EnvInput} {v : IntVector}
    (h : boundaryEvent e s = .interrupt v) : s.interruptible = true := by
  rcases boundaryEvent_cases e s with ⟨_, hb⟩ | ⟨_, _, hb⟩ | ⟨_, _, _, hint, _⟩ |
    ⟨_, _, _, ⟨_, hb⟩ | ⟨_, hb⟩⟩
  case inr.inr.inl => exact hint
  all_goals cases h.symm.trans hb

/-- An instruction runs only in an awake and running core (60_exceptions.md R324). -/
theorem running_of_event {e : EnvInput} (h : boundaryEvent e s = .instruction) :
    s.stopped = false ∧ s.sleeping = false := by
  rcases boundaryEvent_cases e s with ⟨_, hb⟩ | ⟨_, _, hb⟩ | ⟨_, _, _, _, _, hb⟩ |
    ⟨_, hstop, _, ⟨_, hb⟩ | ⟨hsleep, _⟩⟩
  case inr.inr.inr.inr => exact ⟨hstop, hsleep⟩
  all_goals cases h.symm.trans hb

/-- Everything a step can do when it goes on: a reset, nothing but the passing of the boundary, the
entry into an interrupt, or one instruction of an awake and running core. -/
theorem step_next (h : step s = .next t) :
    t = warmReset s.pastInput ∨ t = s.pastInput ∨
    (∃ v, s.interruptible = true ∧ interruptEntry s.pastInput v = .next t) ∨
    (∃ i, s.stopped = false ∧ s.sleeping = false ∧
      exec i s.pastInput.beforeInstruction = .next t) := by
  rcases atBoundary_next h with ⟨_, e⟩ | ⟨_, e⟩ | ⟨v, hb, e⟩ | ⟨_, e⟩ | ⟨hb, e⟩
  · exact .inl e
  · exact .inr (.inl e)
  · exact .inr (.inr (.inl ⟨v, interruptible_of_event hb, e⟩))
  · exact .inr (.inl e)
  · obtain ⟨hstop, hsleep⟩ := running_of_event hb
    obtain ⟨i, _, hi⟩ := bind_eq_next.1 e
    exact .inr (.inr (.inr ⟨i, hstop, hsleep, hi⟩))

/-! ## The invariant -/

/-- A reset empties SRAM and the record of device writes, and delays nothing. -/
theorem warmReset_inv (h : s.Inv) : (warmReset s).Inv :=
  have ⟨_, hflash, _, _⟩ := h
  ⟨rfl, hflash, rfl, rfl⟩

/-- The entry into an interrupt delays nothing: it comes with I set and no delay, so that no write
of its push can raise I. -/
theorem interruptEntry_inv {v : IntVector} (h : s.Inv) (hint : s.interruptible = true)
    (ht : interruptEntry s v = .next t) : t.Inv := by
  obtain ⟨hsram, hflash, hio, _⟩ := h
  obtain ⟨hI, hdelay⟩ : s.flag flagI = true ∧ s.irqDelay = false := by
    simpa [State.interruptible] using hint
  obtain ⟨u, hu, rfl⟩ := interruptEntry_next ht
  have k : Kept 0 s u := Kept.pushPC hu
  obtain ⟨_, _, _, hf, _⟩ := pushPC_keeps hu
  have hd : u.irqDelay = false := by
    rcases k.delay with e | ⟨e, _⟩
    · rw [e, hdelay]
    · rw [hI] at e; cases e
  refine ⟨k.sram hsram, ?_, k.ioWritten hio, ?_⟩
  · rw [State.flashOk, ← hf] at hflash
    exact hflash
  · simp [State.delayOk, hd]

/-- An instruction of an awake and running core delays interrupts only if it sets I, and SLEEP and
BREAK do not. -/
theorem exec_inv (h : s.Inv) (hd : s.irqDelay = false) (hsleep : s.sleeping = false)
    (hstop : s.stopped = false) (ht : exec i s = .next t) : t.Inv := by
  obtain ⟨hsram, hflash, hio, _⟩ := h
  have k := exec_keeps i s t ht
  have f := exec_framed i s t ht
  refine ⟨k.sram hsram, ?_, k.ioWritten hio, ?_⟩
  · rw [State.flashOk, ← f.flash] at hflash
    exact hflash
  · rcases k.delay with e | ⟨_, hI⟩
    · simp [State.delayOk, e, hd]
    · by_cases hi : i = .sleep ∨ i = .brk
      · have hnone : t.irqDelay = s.irqDelay := by
          rcases hi with rfl | rfl <;> exact f.irqDelay (by simp [writtenFlags]) (by simp [storedTo])
        simp [State.delayOk, hnone, hd]
      · rw [not_or] at hi
        simp [State.delayOk, hI, f.sleeping hi.1, f.stopped hi.2, hsleep, hstop]

end Sys2Proof.Machine
end

section
/-! PROOFS. The invariants of every step, and the bytes of memory that an instruction changes. -/
namespace Sys2Proof.Proofs
open Sys2Proof.Machine

/-- Settles O23, by the four things a step can do. -/
theorem everyStepKeepsTheInvariant : Obligations.EveryStepKeepsTheInvariant := by
  intro s t hs h
  rcases step_next h with rfl | rfl | ⟨v, hint, hv⟩ | ⟨i, hstop, hsleep, hi⟩
  · exact warmReset_inv hs
  · exact hs
  · exact interruptEntry_inv (s := s.pastInput) hs hint hv
  · have ⟨hsram, hflash, hio, _⟩ := hs
    have hinv : s.pastInput.beforeInstruction.Inv := ⟨hsram, hflash, hio, rfl⟩
    exact exec_inv hinv rfl hsleep hstop hi

/-- Settles O25: a reset keeps program memory and parameters, a push writes neither, and neither
lies in the frame of an instruction. -/
theorem programMemoryIsConstant : Obligations.ProgramMemoryIsConstant := by
  intro s t h
  rcases step_next h with rfl | rfl | ⟨v, _, hv⟩ | ⟨i, _, _, hi⟩
  · exact ⟨rfl, rfl⟩
  · exact ⟨rfl, rfl⟩
  · obtain ⟨u, hu, rfl⟩ := interruptEntry_next hv
    obtain ⟨_, _, _, hflash, _, _, _, _, hparams⟩ := pushPC_keeps hu
    exact ⟨hflash, hparams⟩
  · have f := exec_framed i _ t hi
    exact ⟨f.flash, f.params⟩

/-- Settles O30: the memories of the frame. -/
theorem memoryChangesOnlyWhereStored : Obligations.MemoryChangesOnlyWhereStored := by
  intro i s t hwf h
  have f := exec_framed i s t h
  obtain ⟨_, hread⟩ := f.sram hwf
  exact ⟨hread, fun b => by rw [State.flashByte, f.flash, State.flashByte]⟩

/-- Settles O26: what the four things a step can do add to the records, and what they count. -/
theorem eventsOnlyGrow : Obligations.EventsOnlyGrow := by
  intro s t h
  rcases step_next h with rfl | rfl | ⟨v, _, hv⟩ | ⟨i, _, _, hi⟩
  · exact ⟨⟨[], (List.append_nil _).symm⟩, rfl, rfl, rfl, le_rfl, Nat.le_add_right _ _⟩
  · exact ⟨⟨[], (List.append_nil _).symm⟩, rfl, rfl, rfl, le_rfl, Nat.le_add_right _ _⟩
  · obtain ⟨u, hu, rfl⟩ := interruptEntry_next hv
    have k : Kept 2 s.pastInput u := Kept.pushPC hu
    obtain ⟨_, _, _, _, henv, hrest, hbound, _, _⟩ := pushPC_keeps hu
    obtain ⟨l, hl⟩ := k.events
    exact ⟨⟨l ++ [.interruptTaken v], by simp [← hl]⟩, henv, hrest, hbound, k.draws_ge, k.draws_le⟩
  · have k := exec_keeps i _ t hi
    have f := exec_framed i _ t hi
    obtain ⟨l, hl⟩ := k.events
    exact ⟨⟨l, hl.symm⟩, f.env, f.envRest, f.boundaries, k.draws_ge, k.draws_le⟩

end Sys2Proof.Proofs
end

section
/-! PROOFS. Reads and writes of data space, of the I/O registers and of the stack, with the addresses
at which they stop. -/
namespace Sys2Proof.Machine
open Sys2Proof.Claims

variable {s t u : State}

/-! ## The data space (20_memory.md R43 to R47) -/

/-- The I/O register at a data address, as R43 of 20_memory.md counts them from $20. -/
theorem dataPlace_io_of_sub {a : DataAddr} (h1 : 0x20 ≤ a.toNat) (h2 : a.toNat ≤ 0x5F) :
    dataPlace a = .io ((a - 0x20#16).setWidth 6) := by
  have hio : BitVec.ofNat 6 (a.toNat - 32) = (a - 0x20#16).setWidth 6 := by
    apply BitVec.eq_of_toNat_eq
    rw [ioPlace_toNat (by omega)]
    simp only [BitVec.toNat_setWidth]
    bv_omega
  rw [dataPlace_io h1 (by omega), hio]

theorem memRead_register (s : State) {a : DataAddr} (h : a.toNat < 32) :
    memRead s a = .next (s.regs[a.toNat], s) := by
  rw [memRead, dataPlace_register h]
  rfl

theorem memRead_io (s : State) {a : DataAddr} (h1 : 0x20 ≤ a.toNat) (h2 : a.toNat ≤ 0x5F) :
    memRead s a = .next (ioRead s ((a - 0x20#16).setWidth 6)) := by
  rw [memRead, dataPlace_io_of_sub h1 h2]

theorem memRead_unwritten {a : DataAddr} (h1 : 96 ≤ a.toNat) (h2 : a.toNat ≤ 0x85F)
    (h : Memory.read .sram s.sram a.toNat = none) :
    memRead s a = .fault (.readOfUnwrittenState a) := by
  simp [memRead, dataPlace_sram h1 h2, h]

theorem memRead_nothing (s : State) {a : DataAddr} (h : 0x85F < a.toNat) :
    memRead s a = .fault (.unimplementedDataAddress a) := by
  rw [memRead, dataPlace_nothing h]

theorem memWrite_register (s : State) {a : DataAddr} (v : Byte) (h : a.toNat < 32) :
    memWrite s a v = .next { s with regs := s.regs.set a.toNat v } := by
  rw [memWrite, dataPlace_register h]
  rfl

theorem memWrite_io (s : State) {a : DataAddr} (v : Byte) (h1 : 0x20 ≤ a.toNat)
    (h2 : a.toNat ≤ 0x5F) : memWrite s a v = ioWrite s ((a - 0x20#16).setWidth 6) v := by
  rw [memWrite, dataPlace_io_of_sub h1 h2]

theorem memWrite_nothing (s : State) {a : DataAddr} (v : Byte) (h : 0x85F < a.toNat) :
    memWrite s a v = .fault (.unimplementedDataAddress a) := by
  rw [memWrite, dataPlace_nothing h]

/-! ## The I/O registers (20_memory.md R48, R49) -/

/-- The registers that the core owns, as the statements list them. -/
theorem coreOwned_eq_false_iff (a : IoAddr) :
    coreOwned a = false ↔ a ≠ 0x3F#6 ∧ a ≠ 0x3E#6 ∧ a ≠ 0x3D#6 ∧ a ≠ 0x35#6 := by
  simp [coreOwned, and_assoc]

theorem ioRead_device (s : State) {a : IoAddr} (h : coreOwned a = false) :
    ioRead s a = deviceRead s a := by
  rw [coreOwned_eq_false_iff] at h
  obtain ⟨h1, h2, h3, h4⟩ := h
  rw [ioRead, if_neg h1, if_neg h2, if_neg h3, if_neg h4]

/-- IVSEL and IVCE are the two low bits of GICR. -/
theorem low_bits_clear_iff (v : Byte) :
    v.setWidth 2 = 0#2 ↔ bitOf v 1 = false ∧ bitOf v 0 = false := by
  revert v
  decide

theorem guardedWrite_eq_false {a : IoAddr} {v : Byte} (h1 : a = 0x37#6 → v.getLsbD 0 = false)
    (h2 : a = 0x3B#6 → v.setWidth 2 = 0#2) : guardedWrite a v = false := by
  by_cases e1 : a = 0x37#6
  · have hv : bitOf v 0 = false := h1 e1
    simp [guardedWrite, e1, hv]
  · by_cases e2 : a = 0x3B#6
    · obtain ⟨hv1, hv0⟩ := (low_bits_clear_iff v).1 (h2 e2)
      simp [guardedWrite, e2, hv1, hv0]
    · simp [guardedWrite, e1, e2]

theorem ioWrite_spmcr_refused (s : State) {v : Byte} (h : v.getLsbD 0 = true) :
    ioWrite s 0x37#6 v = .refused .selfProgrammingNotModelled := by
  have hv : bitOf v 0 = true := h
  simp [ioWrite, hv]

theorem ioWrite_gicr_refused (s : State) {v : Byte} (h : v.setWidth 2 ≠ 0#2) :
    ioWrite s 0x3B#6 v = .refused .vectorMoveNotModelled := by
  have hv : bitOf v 1 = true ∨ bitOf v 0 = true := by
    by_contra hn
    rw [not_or, Bool.not_eq_true, Bool.not_eq_true] at hn
    exact h ((low_bits_clear_iff v).2 hn)
  simp [ioWrite, hv]

/-! ## The stack (20_memory.md R56 to R59) -/

theorem spAddr_toNat (s : State) : s.spAddr.toNat = s.sp.toNat := by
  have := s.sp.isLt
  simp only [State.spAddr, BitVec.toNat_setWidth]
  omega

theorem sp_sub_one_toNat {v : BitVec 12} (h : 1 ≤ v.toNat) : (v - 1#12).toNat = v.toNat - 1 := by
  bv_omega

/-- A pop of a byte that SRAM lists above SP goes on. -/
theorem pop8_sram {v : Byte} (h1 : 96 ≤ (s.sp + 1#12).toNat) (h2 : (s.sp + 1#12).toNat ≤ 0x85F)
    (h : Memory.read .sram s.sram (s.sp + 1#12).toNat = some v) :
    pop8 s = .next (v, { s with sp := s.sp + 1#12 }) := by
  have ha := spAddr_toNat { s with sp := s.sp + 1#12 }
  exact memRead_sram _ (by rw [ha]; exact h1) (by rw [ha]; exact h2) (by rw [ha]; exact h)

/-- A push where SP names neither SPL nor SPH stops as its write of data space does. -/
theorem push8_fault {v : Byte} {e : Fault} (h1 : s.sp ≠ 0x5D#12) (h2 : s.sp ≠ 0x5E#12)
    (h : memWrite s s.spAddr v = .fault e) : push8 s v = .fault e := by
  rw [push8, if_neg (not_or.2 ⟨h1, h2⟩), h, bind_fault]

/-- A push onto SPL or SPH is refused (20_memory.md R56). -/
theorem push8_refused (h : s.sp = 0x5D#12 ∨ s.sp = 0x5E#12) (v : Byte) :
    push8 s v = .refused .stackPointerSelfAccess := by
  rw [push8, if_pos h]

/-- A push above RAMEND faults (20_memory.md R47). -/
theorem push8_above_ramEnd (h : 0x860 ≤ s.sp.toNat) (v : Byte) :
    push8 s v = .fault (.unimplementedDataAddress (s.sp.setWidth 16)) :=
  push8_fault (by bv_omega) (by bv_omega) (memWrite_nothing s v (by rw [spAddr_toNat]; omega))

/-- A push with SP at SREG leaves SP at SPH. -/
theorem push8_onto_sreg (h : s.sp = 0x5F#12) (v : Byte) :
    ∃ u, push8 s v = .next u ∧ u.sp = 0x5E#12 := by
  have ha : s.spAddr = 0x5F#16 := by rw [State.spAddr, h]; rfl
  refine ⟨{ s.writeSreg v with sp := s.sp - 1#12 }, ?_, by rw [h]; rfl⟩
  rw [push8, if_neg (by rw [h]; decide), ha]
  rfl

/-- A push with SP at R0 leaves SP at $FFF. -/
theorem push8_onto_r0 (h : s.sp = 0x000#12) (v : Byte) :
    ∃ u, push8 s v = .next u ∧ u.sp = 0xFFF#12 := by
  have ha : s.spAddr = 0x0000#16 := by rw [State.spAddr, h]; rfl
  refine ⟨{ s.setReg 0 v with sp := s.sp - 1#12 }, ?_, by rw [h]; rfl⟩
  rw [push8, if_neg (by rw [h]; decide), ha]
  rfl

/-! ## Pushes that do not go on, in the vocabulary of the statements -/

/-- A write of data space that `stored` gives no state stops as `writeStop` says. -/
theorem memWrite_of_stored_none {a : DataAddr} {v : Byte} (h : stored s a v = none) :
    memWrite s a v = writeStop a := by
  have e := memWrite_eq s a v
  rw [h] at e
  exact e

/-- Nothing follows a write that stopped. -/
theorem writeStop_bind (a : DataAddr) (f : State → Res State) :
    (writeStop a).bind f = writeStop a := by
  unfold writeStop
  split
  · rfl
  · split <;> rfl

theorem pushStop_bind (s : State) (f : State → Res State) : (pushStop s).bind f = pushStop s := by
  unfold pushStop
  split
  · rfl
  · exact writeStop_bind _ f

theorem pushPCStop_bind (s : State) (a : ProgAddr) (f : State → Res State) :
    (pushPCStop s a).bind f = pushPCStop s a := by
  unfold pushPCStop
  split <;> exact pushStop_bind _ f

/-- A push that `pushed` gives no state stops as `pushStop` says. -/
theorem push8_of_pushed_none {v : Byte} (h : pushed s v = none) : push8 s v = pushStop s := by
  unfold pushed at h
  unfold push8 pushStop
  split
  · rfl
  · rename_i hsp
    rw [if_neg hsp, Option.map_eq_none_iff] at h
    rw [State.spAddr, memWrite_of_stored_none h, writeStop_bind]

/-- A push of a return address that `pushedPC` gives no state stops as `pushPCStop` says, at its low
byte or at its high byte. -/
theorem pushPC_of_pushedPC_none {a : ProgAddr} (h : pushedPC s a = none) :
    pushPC s a = pushPCStop s a := by
  unfold pushedPC at h
  simp only [pushPC, return_low, return_high, pushPCStop]
  cases hlow : pushed s (a.setWidth 8) with
  | none => rw [push8_of_pushed_none hlow, pushStop_bind]
  | some u =>
    rw [hlow, Option.bind_some] at h
    rw [push8_of_pushed hlow, bind_next, push8_of_pushed_none h]

theorem callTo_of_pushedPC_none {a : ProgAddr} (h : pushedPC s a = none) (k : ProgAddr) :
    callTo s a k = pushPCStop s a := by
  rw [callTo, pushPC_of_pushedPC_none h, pushPCStop_bind]

/-! ## A return address on a stack in SRAM (20_memory.md R42, R58, R59) -/

/-- SRAM with the two bytes of a return address, the low byte at k. -/
def withReturn (m : Memory) (k : Nat) (a : ProgAddr) : Memory :=
  Memory.write .sram (Memory.write .sram m k (a.setWidth 8)) (k - 1) ((a >>> 8).setWidth 8)

theorem read_withReturn {m : Memory} (h : Memory.wf .sram m = true) {k : Nat} (hk : 1 ≤ k)
    (a : ProgAddr) (b : Nat) : Memory.read .sram (withReturn m k a) b =
      if b = k then some (a.setWidth 8)
      else if b + 1 = k then some ((a >>> 8).setWidth 8)
      else Memory.read .sram m b := by
  rw [withReturn, read_write _ _ _ _ _ (wf_write _ _ _ _ h), read_write _ _ _ _ _ h]
  by_cases hlow : b = k
  · rw [if_neg (by omega), if_pos hlow, if_pos hlow]
  · by_cases hhigh : b + 1 = k
    · rw [if_pos (by omega), if_neg hlow, if_pos hhigh]
    · rw [if_neg (by omega), if_neg hlow, if_neg hlow, if_neg hhigh]

theorem pushPC_sram (s : State) (a : ProgAddr) (h1 : 0x61 ≤ s.sp.toNat) (h2 : s.sp.toNat ≤ 0x85F) :
    pushPC s a =
      .next { s with sram := withReturn s.sram s.sp.toNat a, sp := s.sp - 2#12 } := by
  have hsp : (s.sp - 1#12).toNat = s.sp.toNat - 1 := sp_sub_one_toNat (by omega)
  have htwo : s.sp - 1#12 - 1#12 = s.sp - 2#12 := by bv_omega
  simp only [pushPC, return_low, return_high]
  rw [push8_sram s _ (by omega) h2, bind_next,
    push8_sram _ _ (by simp only [hsp]; omega) (by simp only [hsp]; omega)]
  simp only [hsp, htwo, withReturn]

/-- The two bytes of a return address, put together and cut to 14 bits. -/
theorem return_bytes (a : ProgAddr) :
    (((a >>> 8).setWidth 8 : Byte) ++ (a.setWidth 8 : Byte)).setWidth 14 = a := by
  apply BitVec.eq_of_getLsbD_eq
  intro i hi
  rw [BitVec.getLsbD_setWidth, BitVec.getLsbD_append]
  by_cases h : i < 8
  · simp [h, hi]
  · simp [h, hi, show 8 + (i - 8) = i by omega]
    omega

/-- A pop of the two bytes above SP, both listed in SRAM. -/
theorem popPC_sram {hi lo : Byte} (h1 : 96 ≤ (s.sp + 1#12).toNat)
    (h2 : (s.sp + 2#12).toNat ≤ 0x85F) (h3 : (s.sp + 2#12).toNat = (s.sp + 1#12).toNat + 1)
    (hhi : Memory.read .sram s.sram (s.sp + 1#12).toNat = some hi)
    (hlo : Memory.read .sram s.sram (s.sp + 2#12).toNat = some lo) :
    popPC s = .next ((hi ++ lo).setWidth 14, { s with sp := s.sp + 2#12 }) := by
  have htwo : s.sp + 1#12 + 1#12 = s.sp + 2#12 := by bv_omega
  rw [popPC, pop8_sram h1 (by omega) hhi, bind_next,
    pop8_sram (by rw [htwo]; omega) (by rw [htwo]; omega) (by rw [htwo]; exact hlo), bind_next, htwo]

/-- The pop that follows a push of a return address gives it back, and SP as it was. -/
theorem popPC_withReturn (a : ProgAddr) (hwf : Memory.wf .sram s.sram = true)
    (h1 : 0x61 ≤ s.sp.toNat) (h2 : s.sp.toNat ≤ 0x85F) :
    popPC { s with sram := withReturn s.sram s.sp.toNat a, sp := s.sp - 2#12 } =
      .next (a, { s with sram := withReturn s.sram s.sp.toNat a }) := by
  have hone : s.sp - 2#12 + 1#12 = s.sp - 1#12 := by bv_omega
  have htwo : s.sp - 2#12 + 2#12 = s.sp := by bv_omega
  have hsp : (s.sp - 1#12).toNat = s.sp.toNat - 1 := sp_sub_one_toNat (by omega)
  have hread := read_withReturn hwf (show 1 ≤ s.sp.toNat by omega) a
  have hpop := popPC_sram
    (s := { s with sram := withReturn s.sram s.sp.toNat a, sp := s.sp - 2#12 })
    (hi := (a >>> 8).setWidth 8) (lo := a.setWidth 8)
    (by simp only [hone, hsp]; omega) (by simp only [htwo]; exact h2)
    (by simp only [hone, htwo, hsp]; omega)
    (by simp only [hone, hsp]; rw [hread, if_neg (by omega), if_pos (by omega)])
    (by simp only [htwo]; rw [hread, if_pos rfl])
  simpa only [htwo, return_bytes] using hpop

end Sys2Proof.Machine
end

section
/-! PROOFS. The statements about data space, the I/O registers and the stack. -/
namespace Sys2Proof.Proofs
open Sys2Proof.Machine Sys2Proof.Claims

/-- Settles O8, range by range. -/
theorem memReadIsR44 : Obligations.MemReadIsR44 := fun s _ =>
  ⟨fun h => memRead_register s (Nat.lt_succ_of_le h), memRead_io s,
    fun h1 h2 _ hv => memRead_sram s h1 h2 hv, memRead_unwritten, memRead_nothing s⟩

/-- Settles O9, range by range; in SRAM the bytes after the write are those of `read_write`. -/
theorem memWriteIsR45 : Obligations.MemWriteIsR45 := fun s _ v =>
  ⟨fun h => memWrite_register s v (Nat.lt_succ_of_le h), memWrite_io s v,
    fun h1 h2 => ⟨_, memWrite_sram s v h1 h2, fun hwf b => read_write _ _ _ b v hwf⟩,
    memWrite_nothing s v⟩

/-- Settles O11: the two writes of `withReturn`, and the pop that reads them. -/
theorem returnAddressPushAndPop : Obligations.ReturnAddressPushAndPop := by
  intro s a hwf h1 h2
  have hsp : 1 ≤ s.sp.toNat := Nat.one_le_of_lt h1
  exact ⟨withReturn s.sram s.sp.toNat a, pushPC_sram s a h1 h2, popPC_withReturn a hwf h1 h2,
    read_withReturn hwf hsp a⟩

/-- Settles O12: the low byte stops, or the push of it leaves SP where the high byte stops. -/
theorem stackWritesThatStop : Obligations.StackWritesThatStop := by
  intro s v a
  refine ⟨fun h => ⟨push8_refused h v, ?spl⟩, fun h => ?sreg, fun h => ⟨push8_above_ramEnd h v, ?top⟩,
    fun h => ?wrap⟩
  case spl => rw [pushPC, push8_refused h, bind_refused]
  case sreg =>
    obtain ⟨u, hu, hsp⟩ := push8_onto_sreg h ((a.setWidth 16).extractLsb' 0 8)
    rw [pushPC, hu, bind_next, push8_refused (.inr hsp)]
  case top => rw [pushPC, push8_above_ramEnd h, bind_fault]
  case wrap =>
    obtain ⟨u, hu, hsp⟩ := push8_onto_r0 h ((a.setWidth 16).extractLsb' 0 8)
    rw [pushPC, hu, bind_next, push8_above_ramEnd (by rw [hsp]; decide), hsp]
    rfl

/-- Settles O45: every push stops as `pushPC_of_pushedPC_none` says, and nothing follows it. -/
theorem pushesThatStop : Obligations.PushesThatStop := by
  refine ⟨?push, ?rcall, ?icall, ?call, ?entry⟩
  case push =>
    intro s r h
    change (push8 s s.regs[r]).bind _ = _
    rw [push8_of_pushed_none h, pushStop_bind]
  case rcall => exact fun s k h => callTo_of_pushedPC_none h _
  case icall =>
    intro s hz h
    have htarget : jumpTarget (s.pointer .z).toNat = .next _ := jumpTarget_next.2 ⟨hz, rfl⟩
    change (jumpTarget (s.pointer .z).toNat).bind _ = _
    rw [htarget, bind_next, callTo_of_pushedPC_none h]
  case call =>
    intro s k hk h
    change (jumpTarget k.toNat).bind _ = _
    rw [jumpTarget_next.2 ⟨hk, rfl⟩, bind_next, callTo_of_pushedPC_none h]
  case entry =>
    intro s n h
    rw [interruptEntry, pushPC_of_pushedPC_none h, pushPCStop_bind]

/-- Settles O10: the registers of the core one by one, the two refused writes, the devices. -/
theorem ioSpaceIsR48AndR49 : Obligations.IoSpaceIsR48AndR49 := by
  intro s v
  refine ⟨rfl, ?sphRead, ?splRead, rfl, rfl, ?sphWrite, ?splWrite, rfl, ioWrite_spmcr_refused s,
    ioWrite_gicr_refused s, ?devices⟩
  case sphRead => rw [← sph_eq]; rfl
  case splRead => rw [← spl_eq]; rfl
  case sphWrite => rw [← low_half, ← low_byte_of_sp]; rfl
  case splWrite => rw [← high_bits_of_sp]; rfl
  case devices =>
    intro a h1 h2 h3 h4
    have hdev : coreOwned a = false := (coreOwned_eq_false_iff a).2 ⟨h1, h2, h3, h4⟩
    exact ⟨ioRead_device s hdev,
      fun hspm hivs => ioWrite_device s hdev (guardedWrite_eq_false hspm hivs)⟩

end Sys2Proof.Proofs
end

section
/-! PROOFS. The fields and the formats of R72 and R75 of 30_encoding.md as arithmetic on the numbers
that the words stand for, and for each format that its fields and its encoder undo each other. -/
namespace Sys2Proof

/-! ## Bits as numbers -/

theorem toNat_append_eq_add {m n : Nat} (x : BitVec m) (y : BitVec n) :
    (x ++ y).toNat = x.toNat * 2 ^ n + y.toNat := by
  rw [BitVec.toNat_append, ← Nat.shiftLeft_add_eq_or_of_lt y.isLt, Nat.shiftLeft_eq]

theorem toNat_extractLsb'_eq_mod {n : Nat} (x : BitVec n) (s l : Nat) :
    (x.extractLsb' s l).toNat = x.toNat / 2 ^ s % 2 ^ l := by
  rw [BitVec.extractLsb'_toNat, Nat.shiftRight_eq_div_pow]

/-- Where a mask is all ones, a masked word has the bits of the value that it is masked to. -/
theorem bits_of_masked {w mask value : Word} (h : w &&& mask = value) (s l : Nat)
    (hones : mask.extractLsb' s l = BitVec.allOnes l) :
    w.toNat / 2 ^ s % 2 ^ l = value.toNat / 2 ^ s % 2 ^ l := by
  rw [← toNat_extractLsb'_eq_mod, ← toNat_extractLsb'_eq_mod, ← h, BitVec.extractLsb'_and, hones,
    BitVec.and_allOnes]

theorem reg5_toNat (d : Reg) : (reg5 d).toNat = d.val := rfl
theorem bit3_toNat (b : BitNo) : (bit3 b).toNat = b.val := rfl

/-! ## The fields of a word (R72, R75) -/

section
variable (w w1 : Word)

theorem field84_val : (field84 w).val = w.toNat / 16 % 32 := by
  rw [field84, BitVec.val_toFin, toNat_extractLsb'_eq_mod]; omega

theorem fieldRr_val : (fieldRr w).val = w.toNat / 512 % 2 * 16 + w.toNat % 16 := by
  rw [fieldRr, BitVec.val_toFin, toNat_append_eq_add]
  simp only [toNat_extractLsb'_eq_mod]; omega

theorem fieldUpperD_val : (fieldUpperD w).val = 16 + w.toNat / 16 % 16 := by
  rw [fieldUpperD, BitVec.val_toFin, toNat_append_eq_add]
  simp only [toNat_extractLsb'_eq_mod, BitVec.toNat_ofNat]; omega

theorem fieldUpperR_val : (fieldUpperR w).val = 16 + w.toNat % 16 := by
  rw [fieldUpperR, BitVec.val_toFin, toNat_append_eq_add]
  simp only [toNat_extractLsb'_eq_mod, BitVec.toNat_ofNat]; omega

theorem fieldMulD_val : (fieldMulD w).val = 16 + w.toNat / 16 % 8 := by
  rw [fieldMulD, BitVec.val_toFin, toNat_append_eq_add]
  simp only [toNat_extractLsb'_eq_mod, BitVec.toNat_ofNat]; omega

theorem fieldMulR_val : (fieldMulR w).val = 16 + w.toNat % 8 := by
  rw [fieldMulR, BitVec.val_toFin, toNat_append_eq_add]
  simp only [toNat_extractLsb'_eq_mod, BitVec.toNat_ofNat]; omega

theorem fieldPairD_val : (fieldPairD w).val = w.toNat / 16 % 16 * 2 := by
  rw [fieldPairD, BitVec.val_toFin, toNat_append_eq_add]
  simp only [toNat_extractLsb'_eq_mod, BitVec.toNat_ofNat]; omega

theorem fieldPairR_val : (fieldPairR w).val = w.toNat % 16 * 2 := by
  rw [fieldPairR, BitVec.val_toFin, toNat_append_eq_add]
  simp only [toNat_extractLsb'_eq_mod, BitVec.toNat_ofNat]; omega

theorem fieldWordD_val : (fieldWordD w).val = 24 + w.toNat / 16 % 4 * 2 := by
  rw [fieldWordD, BitVec.val_toFin, toNat_append_eq_add, toNat_append_eq_add]
  simp only [toNat_extractLsb'_eq_mod, BitVec.toNat_ofNat]; omega

theorem fieldK8_toNat : (fieldK8 w).toNat = w.toNat / 256 % 16 * 16 + w.toNat % 16 := by
  rw [fieldK8, toNat_append_eq_add]
  simp only [toNat_extractLsb'_eq_mod]; omega

theorem fieldK6_toNat : (fieldK6 w).toNat = w.toNat / 64 % 4 * 16 + w.toNat % 16 := by
  rw [fieldK6, toNat_append_eq_add]
  simp only [toNat_extractLsb'_eq_mod]; omega

theorem fieldQ_toNat : (fieldQ w).toNat =
    w.toNat / 8192 % 2 * 32 + w.toNat / 1024 % 4 * 8 + w.toNat % 8 := by
  rw [fieldQ, toNat_append_eq_add, toNat_append_eq_add]
  simp only [toNat_extractLsb'_eq_mod]; omega

theorem fieldA6_toNat : (fieldA6 w).toNat = w.toNat / 512 % 4 * 16 + w.toNat % 16 := by
  rw [fieldA6, toNat_append_eq_add]
  simp only [toNat_extractLsb'_eq_mod]; omega

theorem fieldA5_toNat : (fieldA5 w).toNat = w.toNat / 8 % 32 := toNat_extractLsb'_eq_mod w 3 5

theorem fieldB_val : (fieldB w).val = w.toNat % 8 := by
  rw [fieldB, BitVec.val_toFin, toNat_extractLsb'_eq_mod]; omega

theorem fieldS_val : (fieldS w).val = w.toNat / 16 % 8 := by
  rw [fieldS, BitVec.val_toFin, toNat_extractLsb'_eq_mod]; omega

theorem fieldK22_toNat : (fieldK22 w w1).toNat =
    w.toNat / 16 % 32 * 131072 + w.toNat % 2 * 65536 + w1.toNat := by
  rw [fieldK22, toNat_append_eq_add, toNat_append_eq_add]
  simp only [toNat_extractLsb'_eq_mod]; omega

end

/-! ## The words of the formats (R72) -/

theorem encRR_toNat (op : BitVec 6) (d r : Reg) : (encRR op d r).toNat =
    op.toNat * 1024 + r.val / 16 * 512 + d.val * 16 + r.val % 16 := by
  rw [encRR, toNat_append_eq_add]
  simp only [toNat_append_eq_add, toNat_extractLsb'_eq_mod, reg5_toNat]; omega

theorem encRI8_toNat (op : BitVec 4) (d : Reg) (k : Byte) : (encRI8 op d k).toNat =
    op.toNat * 4096 + k.toNat / 16 * 256 + d.val % 16 * 16 + k.toNat % 16 := by
  rw [encRI8, toNat_append_eq_add]
  simp only [toNat_append_eq_add, toNat_extractLsb'_eq_mod, reg5_toNat]; omega

theorem encR1_toNat (op : BitVec 7) (d : Reg) (low : BitVec 4) : (encR1 op d low).toNat =
    op.toNat * 512 + d.val * 16 + low.toNat := by
  rw [encR1, toNat_append_eq_add]
  simp only [toNat_append_eq_add, reg5_toNat]; omega

theorem encRW_toNat (op : BitVec 8) (d r : Reg) : (encRW op d r).toNat =
    op.toNat * 256 + d.val / 2 * 16 + r.val / 2 := by
  rw [encRW, toNat_append_eq_add]
  simp only [toNat_append_eq_add, toNat_extractLsb'_eq_mod, reg5_toNat]; omega

theorem encRM16_toNat (d r : Reg) : (encRM16 d r).toNat =
    512 + d.val % 16 * 16 + r.val % 16 := by
  rw [encRM16, toNat_append_eq_add]
  simp only [toNat_append_eq_add, toNat_extractLsb'_eq_mod, reg5_toNat, BitVec.toNat_ofNat]; omega

theorem encRM8_toNat (hi lo : BitVec 1) (d r : Reg) : (encRM8 hi lo d r).toNat =
    768 + hi.toNat * 128 + d.val % 8 * 16 + lo.toNat * 8 + r.val % 8 := by
  rw [encRM8, toNat_append_eq_add]
  simp only [toNat_append_eq_add, toNat_extractLsb'_eq_mod, reg5_toNat, BitVec.toNat_ofNat]; omega

theorem encIW_toNat (op : BitVec 8) (d : Reg) (k : BitVec 6) : (encIW op d k).toNat =
    op.toNat * 256 + k.toNat / 16 * 64 + d.val / 2 % 4 * 16 + k.toNat % 16 := by
  rw [encIW, toNat_append_eq_add]
  simp only [toNat_append_eq_add, toNat_extractLsb'_eq_mod, reg5_toNat]; omega

theorem encRQ_toNat (s y : BitVec 1) (d : Reg) (q : BitVec 6) : (encRQ s y d q).toNat =
    32768 + q.toNat / 32 * 8192 + q.toNat / 8 % 4 * 1024 + s.toNat * 512 + d.val * 16 +
      y.toNat * 8 + q.toNat % 8 := by
  rw [encRQ, toNat_append_eq_add]
  simp only [toNat_append_eq_add, toNat_extractLsb'_eq_mod, reg5_toNat, BitVec.toNat_ofNat]; omega

theorem encIO_toNat (s : BitVec 1) (d : Reg) (a : IoAddr) : (encIO s d a).toNat =
    45056 + s.toNat * 2048 + a.toNat / 16 * 512 + d.val * 16 + a.toNat % 16 := by
  rw [encIO, toNat_append_eq_add]
  simp only [toNat_append_eq_add, toNat_extractLsb'_eq_mod, reg5_toNat, BitVec.toNat_ofNat]; omega

theorem encIOB_toNat (op : BitVec 2) (a : LowIoAddr) (b : BitNo) : (encIOB op a b).toNat =
    38912 + op.toNat * 256 + a.toNat * 8 + b.val := by
  rw [encIOB, toNat_append_eq_add]
  simp only [toNat_append_eq_add, bit3_toNat, BitVec.toNat_ofNat]; omega

theorem encRel12_toNat (op : BitVec 4) (k : BitVec 12) : (encRel12 op k).toNat =
    op.toNat * 4096 + k.toNat := by
  rw [encRel12, toNat_append_eq_add]; omega

theorem encBR_toNat (op : BitVec 1) (k : BitVec 7) (s : BitNo) : (encBR op k s).toNat =
    61440 + op.toNat * 1024 + k.toNat * 8 + s.val := by
  rw [encBR, toNat_append_eq_add]
  simp only [toNat_append_eq_add, bit3_toNat, BitVec.toNat_ofNat]; omega

theorem encRB_toNat (op : BitVec 2) (d : Reg) (b : BitNo) : (encRB op d b).toNat =
    63488 + op.toNat * 512 + d.val * 16 + b.val := by
  rw [encRB, toNat_append_eq_add]
  simp only [toNat_append_eq_add, reg5_toNat, bit3_toNat, BitVec.toNat_ofNat]; omega

theorem encSB_toNat (op : BitVec 1) (s : BitNo) : (encSB op s).toNat =
    37896 + op.toNat * 128 + s.val * 16 := by
  rw [encSB, toNat_append_eq_add]
  simp only [toNat_append_eq_add, bit3_toNat, BitVec.toNat_ofNat]; omega

/-- The first word of format A22. -/
def encA22First (op : BitVec 1) (k : BitVec 22) : Word :=
  0b1001010#7 ++ k.extractLsb' 17 5 ++ 0b11#2 ++ op ++ k.extractLsb' 16 1

theorem encA22_eq (op : BitVec 1) (k : BitVec 22) :
    encA22 op k = [encA22First op k, k.extractLsb' 0 16] := rfl

theorem encA22First_toNat (op : BitVec 1) (k : BitVec 22) : (encA22First op k).toNat =
    37900 + k.toNat / 131072 * 16 + op.toNat * 2 + k.toNat / 65536 % 2 := by
  rw [encA22First, toNat_append_eq_add]
  simp only [toNat_append_eq_add, toNat_extractLsb'_eq_mod, BitVec.toNat_ofNat]; omega

/-- The first word of format A16 is one of format R1. -/
theorem encA16_eq (s : BitVec 1) (d : Reg) (k : Word) :
    encA16 s d k = [encR1 (0b100100#6 ++ s) d 0b0000#4, k] := rfl

end Sys2Proof
end

section
/-! PROOFS. Each format of R72 of 30_encoding.md as a pair of maps between operands and words that
undo each other. -/
namespace Sys2Proof

/-! ## The operand ranges (10_state.md R11) -/

theorem isUpper_iff (d : Reg) : isUpper d = true ↔ 16 ≤ d.val := decide_eq_true_iff
theorem isEven_iff (d : Reg) : isEven d = true ↔ d.val % 2 = 0 := decide_eq_true_iff
theorem isMulReg_iff (d : Reg) : isMulReg d = true ↔ 16 ≤ d.val ∧ d.val ≤ 23 := by simp [isMulReg]
theorem isWordReg_iff (d : Reg) : isWordReg d = true ↔ 24 ≤ d.val ∧ d.val % 2 = 0 := by
  simp [isWordReg]

/-! ## A format, both ways -/

/-- The words that `mask` masks to `value` are those that `enc` makes of its operand, and `field`
reads the operand back. -/
structure Format₁ {α : Type} (mask value : Word) (enc : α → Word) (field : Word → α) : Prop where
  masked : ∀ a, enc a &&& mask = value
  field_enc : ∀ a, field (enc a) = a
  enc_field : ∀ w, w &&& mask = value → enc (field w) = w

/-- The same with two operands, which lie in the range `ok`. -/
structure Format₂ {α β : Type} (mask value : Word) (ok : α → β → Bool) (enc : α → β → Word)
    (fa : Word → α) (fb : Word → β) : Prop where
  masked : ∀ a b, enc a b &&& mask = value
  fields_enc : ∀ a b, ok a b = true → fa (enc a b) = a ∧ fb (enc a b) = b
  ok_fields : ∀ w, ok (fa w) (fb w) = true
  enc_fields : ∀ w, w &&& mask = value → enc (fa w) (fb w) = w

/-- The operands in the other order. -/
theorem Format₂.swap {α β : Type} {mask value : Word} {ok : α → β → Bool} {enc : α → β → Word}
    {fa : Word → α} {fb : Word → β} (F : Format₂ mask value ok enc fa fb) :
    Format₂ mask value (fun b a => ok a b) (fun b a => enc a b) fb fa where
  masked b a := F.masked a b
  fields_enc b a h := (F.fields_enc a b h).symm
  ok_fields := F.ok_fields
  enc_fields := F.enc_fields

/-! ## The formats with one operand -/

theorem formatR1 (op : BitVec 7) (low : BitVec 4) :
    Format₁ 0xFE0F#16 (encR1 op 0 low) (encR1 op · low) field84 where
  masked d := by
    rw [encR1, show 0xFE0F#16 = BitVec.allOnes 7 ++ 0#5 ++ BitVec.allOnes 4 from rfl,
      BitVec.and_append]
    simp only [BitVec.and_append, BitVec.and_allOnes, BitVec.and_zero]; rfl
  field_enc d := by
    simp only [Fin.ext_iff, field84_val, encR1_toNat]; omega
  enc_field w h := by
    have hop := bits_of_masked h 9 7 rfl
    have hlow := bits_of_masked h 0 4 rfl
    simp only [← BitVec.toNat_inj, encR1_toNat, field84_val, Fin.val_zero] at hop hlow ⊢; omega

theorem formatSB (op : BitVec 1) : Format₁ 0xFF8F#16 (encSB op 0) (encSB op) fieldS where
  masked s := by
    rw [encSB, show 0xFF8F#16 = BitVec.allOnes 8 ++ BitVec.allOnes 1 ++ 0#3 ++ BitVec.allOnes 4
      from rfl, BitVec.and_append]
    simp only [BitVec.and_append, BitVec.and_allOnes, BitVec.and_zero]; rfl
  field_enc s := by
    simp only [Fin.ext_iff, fieldS_val, encSB_toNat]; omega
  enc_field w h := by
    have hop := bits_of_masked h 7 9 rfl
    have hlow := bits_of_masked h 0 4 rfl
    simp only [← BitVec.toNat_inj, encSB_toNat, fieldS_val, Fin.val_zero] at hop hlow ⊢; omega

theorem formatRel12 (op : BitVec 4) :
    Format₁ 0xF000#16 (encRel12 op 0#12) (encRel12 op) (·.extractLsb' 0 12) where
  masked k := by
    rw [encRel12, show 0xF000#16 = BitVec.allOnes 4 ++ 0#12 from rfl, BitVec.and_append]
    simp only [BitVec.and_allOnes, BitVec.and_zero]; rfl
  field_enc k := by
    simp only [← BitVec.toNat_inj, toNat_extractLsb'_eq_mod, encRel12_toNat]; omega
  enc_field w h := by
    have hop := bits_of_masked h 12 4 rfl
    simp only [← BitVec.toNat_inj, encRel12_toNat, toNat_extractLsb'_eq_mod, BitVec.toNat_zero]
      at hop ⊢
    omega

/-! ## The formats with two operands -/

theorem formatRR (op : BitVec 6) :
    Format₂ 0xFC00#16 (encRR op 0 0) (fun _ _ => true) (encRR op) field84 fieldRr where
  masked d r := by
    rw [encRR, show 0xFC00#16 = BitVec.allOnes 6 ++ 0#1 ++ 0#5 ++ 0#4 from rfl, BitVec.and_append]
    simp only [BitVec.and_append, BitVec.and_allOnes, BitVec.and_zero]; rfl
  fields_enc d r _ := by
    simp only [Fin.ext_iff, field84_val, fieldRr_val, encRR_toNat]; omega
  ok_fields _ := rfl
  enc_fields w h := by
    have hop := bits_of_masked h 10 6 rfl
    simp only [← BitVec.toNat_inj, encRR_toNat, field84_val, fieldRr_val, Fin.val_zero] at hop ⊢
    omega

theorem formatRI8 (op : BitVec 4) :
    Format₂ 0xF000#16 (encRI8 op 0 0#8) (fun d _ => isUpper d) (encRI8 op) fieldUpperD fieldK8 where
  masked d k := by
    rw [encRI8, show 0xF000#16 = BitVec.allOnes 4 ++ 0#4 ++ 0#4 ++ 0#4 from rfl, BitVec.and_append]
    simp only [BitVec.and_append, BitVec.and_allOnes, BitVec.and_zero]; rfl
  fields_enc d k h := by
    rw [isUpper_iff] at h
    simp only [Fin.ext_iff, ← BitVec.toNat_inj, fieldUpperD_val, fieldK8_toNat, encRI8_toNat]; omega
  ok_fields w := by rw [isUpper_iff, fieldUpperD_val]; omega
  enc_fields w h := by
    have hop := bits_of_masked h 12 4 rfl
    simp only [← BitVec.toNat_inj, encRI8_toNat, fieldUpperD_val, fieldK8_toNat, BitVec.toNat_zero,
      Fin.val_zero] at hop ⊢
    omega

theorem formatRW (op : BitVec 8) :
    Format₂ 0xFF00#16 (encRW op 0 0) (fun d r => isEven d && isEven r) (encRW op) fieldPairD
      fieldPairR where
  masked d r := by
    rw [encRW, show 0xFF00#16 = BitVec.allOnes 8 ++ 0#4 ++ 0#4 from rfl, BitVec.and_append]
    simp only [BitVec.and_append, BitVec.and_allOnes, BitVec.and_zero]; rfl
  fields_enc d r h := by
    simp only [Bool.and_eq_true, isEven_iff] at h
    simp only [Fin.ext_iff, fieldPairD_val, fieldPairR_val, encRW_toNat]; omega
  ok_fields w := by
    simp only [Bool.and_eq_true, isEven_iff, fieldPairD_val, fieldPairR_val]; omega
  enc_fields w h := by
    have hop := bits_of_masked h 8 8 rfl
    simp only [← BitVec.toNat_inj, encRW_toNat, fieldPairD_val, fieldPairR_val, Fin.val_zero]
      at hop ⊢
    omega

theorem formatRM16 :
    Format₂ 0xFF00#16 (encRM16 0 0) (fun d r => isUpper d && isUpper r) encRM16 fieldUpperD
      fieldUpperR where
  masked d r := by
    rw [encRM16, show 0xFF00#16 = BitVec.allOnes 8 ++ 0#4 ++ 0#4 from rfl, BitVec.and_append]
    simp only [BitVec.and_append, BitVec.and_allOnes, BitVec.and_zero]; rfl
  fields_enc d r h := by
    simp only [Bool.and_eq_true, isUpper_iff] at h
    simp only [Fin.ext_iff, fieldUpperD_val, fieldUpperR_val, encRM16_toNat]; omega
  ok_fields w := by
    simp only [Bool.and_eq_true, isUpper_iff, fieldUpperD_val, fieldUpperR_val]; omega
  enc_fields w h := by
    have hop := bits_of_masked h 8 8 rfl
    simp only [← BitVec.toNat_inj, encRM16_toNat, fieldUpperD_val, fieldUpperR_val, Fin.val_zero]
      at hop ⊢
    omega

theorem formatRM8 (hi lo : BitVec 1) :
    Format₂ 0xFF88#16 (encRM8 hi lo 0 0) (fun d r => isMulReg d && isMulReg r) (encRM8 hi lo)
      fieldMulD fieldMulR where
  masked d r := by
    rw [encRM8, show 0xFF88#16 = BitVec.allOnes 8 ++ BitVec.allOnes 1 ++ 0#3 ++ BitVec.allOnes 1
      ++ 0#3 from rfl, BitVec.and_append]
    simp only [BitVec.and_append, BitVec.and_allOnes, BitVec.and_zero]; rfl
  fields_enc d r h := by
    simp only [Bool.and_eq_true, isMulReg_iff] at h
    simp only [Fin.ext_iff, fieldMulD_val, fieldMulR_val, encRM8_toNat]; omega
  ok_fields w := by
    simp only [Bool.and_eq_true, isMulReg_iff, fieldMulD_val, fieldMulR_val]; omega
  enc_fields w h := by
    have hhi := bits_of_masked h 7 9 rfl
    have hlo := bits_of_masked h 3 1 rfl
    simp only [← BitVec.toNat_inj, encRM8_toNat, fieldMulD_val, fieldMulR_val, Fin.val_zero]
      at hhi hlo ⊢
    omega

theorem formatIW (op : BitVec 8) :
    Format₂ 0xFF00#16 (encIW op 0 0#6) (fun d _ => isWordReg d) (encIW op) fieldWordD fieldK6 where
  masked d k := by
    rw [encIW, show 0xFF00#16 = BitVec.allOnes 8 ++ 0#2 ++ 0#2 ++ 0#4 from rfl, BitVec.and_append]
    simp only [BitVec.and_append, BitVec.and_allOnes, BitVec.and_zero]; rfl
  fields_enc d k h := by
    rw [isWordReg_iff] at h
    simp only [Fin.ext_iff, ← BitVec.toNat_inj, fieldWordD_val, fieldK6_toNat, encIW_toNat]; omega
  ok_fields w := by rw [isWordReg_iff, fieldWordD_val]; omega
  enc_fields w h := by
    have hop := bits_of_masked h 8 8 rfl
    simp only [← BitVec.toNat_inj, encIW_toNat, fieldWordD_val, fieldK6_toNat, BitVec.toNat_zero,
      Fin.val_zero] at hop ⊢
    omega

theorem formatIO (s : BitVec 1) :
    Format₂ 0xF800#16 (encIO s 0 0#6) (fun _ _ => true) (encIO s) field84 fieldA6 where
  masked d a := by
    rw [encIO, show 0xF800#16 = BitVec.allOnes 4 ++ BitVec.allOnes 1 ++ 0#2 ++ 0#5 ++ 0#4 from rfl,
      BitVec.and_append]
    simp only [BitVec.and_append, BitVec.and_allOnes, BitVec.and_zero]; rfl
  fields_enc d a _ := by
    simp only [Fin.ext_iff, ← BitVec.toNat_inj, field84_val, fieldA6_toNat, encIO_toNat]; omega
  ok_fields _ := rfl
  enc_fields w h := by
    have hop := bits_of_masked h 11 5 rfl
    simp only [← BitVec.toNat_inj, encIO_toNat, field84_val, fieldA6_toNat, BitVec.toNat_zero,
      Fin.val_zero] at hop ⊢
    omega

theorem formatIOB (op : BitVec 2) :
    Format₂ 0xFF00#16 (encIOB op 0#5 0) (fun _ _ => true) (encIOB op) fieldA5 fieldB where
  masked a b := by
    rw [encIOB, show 0xFF00#16 = BitVec.allOnes 6 ++ BitVec.allOnes 2 ++ 0#5 ++ 0#3 from rfl,
      BitVec.and_append]
    simp only [BitVec.and_append, BitVec.and_allOnes, BitVec.and_zero]; rfl
  fields_enc a b _ := by
    simp only [Fin.ext_iff, ← BitVec.toNat_inj, fieldA5_toNat, fieldB_val, encIOB_toNat]; omega
  ok_fields _ := rfl
  enc_fields w h := by
    have hop := bits_of_masked h 8 8 rfl
    simp only [← BitVec.toNat_inj, encIOB_toNat, fieldA5_toNat, fieldB_val, BitVec.toNat_zero,
      Fin.val_zero] at hop ⊢
    omega

theorem formatBR (op : BitVec 1) :
    Format₂ 0xFC00#16 (encBR op 0#7 0) (fun _ _ => true) (encBR op) (·.extractLsb' 3 7) fieldB where
  masked k s := by
    rw [encBR, show 0xFC00#16 = BitVec.allOnes 5 ++ BitVec.allOnes 1 ++ 0#7 ++ 0#3 from rfl,
      BitVec.and_append]
    simp only [BitVec.and_append, BitVec.and_allOnes, BitVec.and_zero]; rfl
  fields_enc k s _ := by
    simp only [Fin.ext_iff, ← BitVec.toNat_inj, toNat_extractLsb'_eq_mod, fieldB_val, encBR_toNat]
    omega
  ok_fields _ := rfl
  enc_fields w h := by
    have hop := bits_of_masked h 10 6 rfl
    simp only [← BitVec.toNat_inj, encBR_toNat, toNat_extractLsb'_eq_mod, fieldB_val,
      BitVec.toNat_zero, Fin.val_zero] at hop ⊢
    omega

theorem formatRB (op : BitVec 2) :
    Format₂ 0xFE08#16 (encRB op 0 0) (fun _ _ => true) (encRB op) field84 fieldB where
  masked d b := by
    rw [encRB, show 0xFE08#16 = BitVec.allOnes 5 ++ BitVec.allOnes 2 ++ 0#5 ++ BitVec.allOnes 1
      ++ 0#3 from rfl, BitVec.and_append]
    simp only [BitVec.and_append, BitVec.and_allOnes, BitVec.and_zero]; rfl
  fields_enc d b _ := by
    simp only [Fin.ext_iff, field84_val, fieldB_val, encRB_toNat]; omega
  ok_fields _ := rfl
  enc_fields w h := by
    have hop := bits_of_masked h 9 7 rfl
    have hzero := bits_of_masked h 3 1 rfl
    simp only [← BitVec.toNat_inj, encRB_toNat, field84_val, fieldB_val, Fin.val_zero]
      at hop hzero ⊢
    omega

/-! ### Format RQ, whose displacement lies in three places -/

/-- A word from its digits in the places of format RQ. -/
theorem digits_of_formatRQ (n : Nat) : n = n / 16384 * 16384 + n / 8192 % 2 * 8192 +
    n / 4096 % 2 * 4096 + n / 1024 % 4 * 1024 + n / 512 % 2 * 512 + n / 16 % 32 * 16 +
    n / 8 % 2 * 8 + n % 8 := by
  have h4 : n / 16 = n / 8 / 2 := by omega
  have h9 : n / 512 = n / 16 / 32 := by omega
  have h10 : n / 1024 = n / 512 / 2 := by omega
  have h12 : n / 4096 = n / 1024 / 4 := by omega
  have h13 : n / 8192 = n / 4096 / 2 := by omega
  have h14 : n / 16384 = n / 8192 / 2 := by omega
  rw [h14, h13, h12, h10, h9, h4]
  omega

/-- The displacement in the three places of its word. -/
theorem fieldQ_encRQ (s y : BitVec 1) (d : Reg) (q : BitVec 6) : fieldQ (encRQ s y d q) = q := by
  have hhigh : (encRQ s y d q).toNat / 8192 = 4 + q.toNat / 32 := by rw [encRQ_toNat]; omega
  have hmid : (encRQ s y d q).toNat / 1024 = 32 + q.toNat / 32 * 8 + q.toNat / 8 % 4 := by
    rw [encRQ_toNat]; omega
  have hlow : (encRQ s y d q).toNat % 8 = q.toNat % 8 := by rw [encRQ_toNat]; omega
  have hbit : (4 + q.toNat / 32) % 2 = q.toNat / 32 := by omega
  have hpair : (32 + q.toNat / 32 * 8 + q.toNat / 8 % 4) % 4 = q.toNat / 8 % 4 := by omega
  rw [← BitVec.toNat_inj, fieldQ_toNat, hhigh, hmid, hlow, hbit, hpair]; omega

/-- The fixed bits of a word of format RQ. -/
theorem fixed_bits_of_formatRQ {s y : BitVec 1} {w : Word} (h : w &&& 0xD208#16 = encRQ s y 0 0#6) :
    w.toNat / 16384 = 2 ∧ w.toNat / 4096 % 2 = 0 ∧ w.toNat / 512 % 2 = s.toNat ∧
      w.toNat / 8 % 2 = y.toNat := by
  have hvalue : (encRQ s y 0 0#6).toNat = 32768 + s.toNat * 512 + y.toNat * 8 := by
    simp only [encRQ_toNat, BitVec.toNat_zero, Fin.val_zero]; omega
  have htop := bits_of_masked h 14 2 rfl
  have hzero := bits_of_masked h 12 1 rfl
  have hs := bits_of_masked h 9 1 rfl
  have hy := bits_of_masked h 3 1 rfl
  rw [hvalue] at htop hzero hs hy
  exact ⟨by omega, by omega, by omega, by omega⟩

theorem formatRQ (s y : BitVec 1) :
    Format₂ 0xD208#16 (encRQ s y 0 0#6) (fun _ _ => true) (encRQ s y) field84 fieldQ where
  masked d q := by
    rw [encRQ, show 0xD208#16 = BitVec.allOnes 2 ++ 0#1 ++ BitVec.allOnes 1 ++ 0#2 ++
      BitVec.allOnes 1 ++ 0#5 ++ BitVec.allOnes 1 ++ 0#3 from rfl, BitVec.and_append]
    simp only [BitVec.and_append, BitVec.and_allOnes, BitVec.and_zero]; rfl
  fields_enc d q _ :=
    ⟨by simp only [Fin.ext_iff, field84_val, encRQ_toNat]; omega, fieldQ_encRQ s y d q⟩
  ok_fields _ := rfl
  enc_fields w h := by
    obtain ⟨htop, hzero, hs, hy⟩ := fixed_bits_of_formatRQ h
    have hhigh : (fieldQ w).toNat / 32 = w.toNat / 8192 % 2 := by rw [fieldQ_toNat]; omega
    have hmid : (fieldQ w).toNat / 8 % 4 = w.toNat / 1024 % 4 := by rw [fieldQ_toNat]; omega
    have hlow : (fieldQ w).toNat % 8 = w.toNat % 8 := by rw [fieldQ_toNat]; omega
    have hdigits := digits_of_formatRQ w.toNat
    rw [htop, hzero, hs, hy] at hdigits
    rw [← BitVec.toNat_inj, encRQ_toNat, hhigh, hmid, hlow, field84_val]
    linarith

/-! ### Format A22, with its second word -/

theorem encA22First_masked (op : BitVec 1) (k : BitVec 22) :
    encA22First op k &&& 0xFE0E#16 = encA22First op 0#22 := by
  rw [encA22First, show 0xFE0E#16 = BitVec.allOnes 7 ++ 0#5 ++ BitVec.allOnes 2 ++ BitVec.allOnes 1
    ++ 0#1 from rfl, BitVec.and_append]
  simp only [BitVec.and_append, BitVec.and_allOnes, BitVec.and_zero]; rfl

theorem fieldK22_encA22 (op : BitVec 1) (k : BitVec 22) :
    fieldK22 (encA22First op k) (k.extractLsb' 0 16) = k := by
  simp only [← BitVec.toNat_inj, fieldK22_toNat, toNat_extractLsb'_eq_mod, encA22First_toNat]; omega

theorem encA22_fieldK22 {op : BitVec 1} {w : Word} (h : w &&& 0xFE0E#16 = encA22First op 0#22)
    (w1 : Word) : encA22 op (fieldK22 w w1) = [w, w1] := by
  have htop := bits_of_masked h 9 7 rfl
  have hop := bits_of_masked h 1 3 rfl
  rw [encA22_eq, List.cons_eq_cons, List.cons_eq_cons]
  simp only [← BitVec.toNat_inj, encA22First_toNat, fieldK22_toNat, toNat_extractLsb'_eq_mod,
    BitVec.toNat_zero] at htop hop ⊢
  exact ⟨by omega, by omega, trivial⟩

end Sys2Proof
end

section
/-! PROOFS. Every row of the opcode list builds instructions whose words are those that it was
given, and every base instruction has a row that builds it from its words. A row is settled by its
format alone: what a format is to be told of a row or of an instruction holds by unfolding. -/
namespace Sys2Proof

/-- The row builds, of a word that it matches, a well-formed base instruction with these words. -/
def Row.BuildsItsWords (row : Row) : Prop :=
  ∀ w w1, row.matches w = true → (row.build w w1).wellFormed = true ∧
    canonical (row.build w w1) = row.build w w1 ∧
    encode (row.build w w1) = if instrWords row.value = 2 then [w, w1] else [w]

/-- A row of the opcode list builds the instruction from its words. -/
inductive HasRow (i : Instr) : Prop
  | oneWord {row : Row} {w : Word} (hmem : row ∈ opcodeRows) (hmatch : row.matches w = true)
      (hlen : instrWords row.value = 1) (henc : encode i = [w]) (hbuild : ∀ w1, row.build w w1 = i)
  | twoWords {row : Row} {w w1 : Word} (hmem : row ∈ opcodeRows) (hmatch : row.matches w = true)
      (hlen : instrWords row.value = 2) (henc : encode i = [w, w1]) (hbuild : row.build w w1 = i)

theorem Row.matches_iff (row : Row) (w : Word) :
    row.matches w = true ↔ w &&& row.mask = row.value := beq_iff_eq

/-! ## Rows without operands -/

section
variable {i : Instr} {name : String} {value : Word}

theorem builds_fixed (hwf : i.wellFormed = true := by rfl) (hbase : canonical i = i := by rfl)
    (hlen : instrWords value = 1 := by rfl) (henc : encode i = [value] := by rfl) :
    Row.BuildsItsWords ⟨name, 0xFFFF#16, value, fun _ _ => i⟩ := by
  intro w w1 hmatch
  have hw : w = value := by
    have hmasked : w &&& BitVec.allOnes 16 = value := (Row.matches_iff _ w).1 hmatch
    rwa [BitVec.and_allOnes] at hmasked
  exact ⟨hwf, hbase, by rw [if_neg (by rw [hlen]; decide), henc, hw]⟩

theorem hasRow_fixed (k : Nat)
    (hrow : opcodeRows[k]? = some ⟨name, 0xFFFF#16, value, fun _ _ => i⟩ := by rfl)
    (hlen : instrWords value = 1 := by rfl) (henc : encode i = [value] := by rfl) : HasRow i :=
  .oneWord (List.mem_of_getElem? hrow) ((Row.matches_iff _ value).2 (BitVec.and_allOnes)) hlen henc
    fun _ => rfl

end

/-! ## Rows of a format with one operand -/

section
variable {α : Type} {mask value : Word} {enc : α → Word} {field : Word → α} {name : String}

theorem Format₁.builds (F : Format₁ mask value enc field) {mk : α → Instr}
    (hlen : instrWords value = 1 := by rfl)
    (hwf : ∀ a, (mk a).wellFormed = true := by intros; rfl)
    (hbase : ∀ a, canonical (mk a) = mk a := by intros; rfl)
    (henc : ∀ a, encode (mk a) = [enc a] := by intros; rfl) :
    Row.BuildsItsWords ⟨name, mask, value, fun w _ => mk (field w)⟩ := by
  intro w w1 hmatch
  have hw := F.enc_field w ((Row.matches_iff _ w).1 hmatch)
  exact ⟨hwf _, hbase _, by rw [if_neg (by rw [hlen]; decide), henc, hw]⟩

theorem Format₁.hasRow (F : Format₁ mask value enc field) (k : Nat) {mk : α → Instr} {a : α}
    (hrow : opcodeRows[k]? = some ⟨name, mask, value, fun w _ => mk (field w)⟩ := by rfl)
    (hlen : instrWords value = 1 := by rfl) (henc : encode (mk a) = [enc a] := by rfl) :
    HasRow (mk a) :=
  .oneWord (List.mem_of_getElem? hrow) ((Row.matches_iff _ _).2 (F.masked a)) hlen henc
    fun _ => congrArg mk (F.field_enc a)

/-- The row has a second word, the other operand. -/
theorem Format₁.builds_twoWords (F : Format₁ mask value enc field) {mk : α → Word → Instr}
    (hlen : instrWords value = 2 := by rfl)
    (hwf : ∀ a k, (mk a k).wellFormed = true := by intros; rfl)
    (hbase : ∀ a k, canonical (mk a k) = mk a k := by intros; rfl)
    (henc : ∀ a k, encode (mk a k) = [enc a, k] := by intros; rfl) :
    Row.BuildsItsWords ⟨name, mask, value, fun w w1 => mk (field w) w1⟩ := by
  intro w w1 hmatch
  have hw := F.enc_field w ((Row.matches_iff _ w).1 hmatch)
  exact ⟨hwf _ _, hbase _ _, by rw [if_pos hlen, henc, hw]⟩

theorem Format₁.hasRow_twoWords (F : Format₁ mask value enc field) (n : Nat)
    {mk : α → Word → Instr} {a : α} {k : Word}
    (hrow : opcodeRows[n]? = some ⟨name, mask, value, fun w w1 => mk (field w) w1⟩ := by rfl)
    (hlen : instrWords value = 2 := by rfl) (henc : encode (mk a k) = [enc a, k] := by rfl) :
    HasRow (mk a k) :=
  .twoWords (List.mem_of_getElem? hrow) ((Row.matches_iff _ _).2 (F.masked a)) hlen henc
    (congrArg (mk · k) (F.field_enc a))

end

/-! ## Rows of a format with two operands -/

section
variable {α β : Type} {mask value : Word} {ok : α → β → Bool} {enc : α → β → Word}
  {fa : Word → α} {fb : Word → β} {name : String} {mk : α → β → Instr}

theorem Format₂.builds (F : Format₂ mask value ok enc fa fb)
    (hlen : instrWords value = 1 := by rfl)
    (hwf : ∀ a b, (mk a b).wellFormed = ok a b := by intros; rfl)
    (hbase : ∀ a b, canonical (mk a b) = mk a b := by intros; rfl)
    (henc : ∀ a b, encode (mk a b) = [enc a b] := by intros; rfl) :
    Row.BuildsItsWords ⟨name, mask, value, fun w _ => mk (fa w) (fb w)⟩ := by
  intro w w1 hmatch
  have hw := F.enc_fields w ((Row.matches_iff _ w).1 hmatch)
  exact ⟨(hwf _ _).trans (F.ok_fields w), hbase _ _,
    by rw [if_neg (by rw [hlen]; decide), henc, hw]⟩

theorem Format₂.hasRow (F : Format₂ mask value ok enc fa fb) (k : Nat) {a : α} {b : β}
    (hok : ok a b = true)
    (hrow : opcodeRows[k]? = some ⟨name, mask, value, fun w _ => mk (fa w) (fb w)⟩ := by rfl)
    (hlen : instrWords value = 1 := by rfl) (henc : encode (mk a b) = [enc a b] := by rfl) :
    HasRow (mk a b) :=
  have ⟨ha, hb⟩ := F.fields_enc a b hok
  .oneWord (List.mem_of_getElem? hrow) ((Row.matches_iff _ _).2 (F.masked a b)) hlen henc
    fun _ => congrArg₂ mk ha hb

end

/-! ## Rows of format A22 -/

section
variable {name : String} {value : Word} {mk : BitVec 22 → Instr}

theorem builds_encA22 (op : BitVec 1) (hvalue : value = encA22First op 0#22 := by rfl)
    (hlen : instrWords value = 2 := by rfl)
    (hwf : ∀ k, (mk k).wellFormed = true := by intros; rfl)
    (hbase : ∀ k, canonical (mk k) = mk k := by intros; rfl)
    (henc : ∀ k, encode (mk k) = encA22 op k := by intros; rfl) :
    Row.BuildsItsWords ⟨name, 0xFE0E#16, value, fun w w1 => mk (fieldK22 w w1)⟩ := by
  intro w w1 hmatch
  have hw := encA22_fieldK22 (((Row.matches_iff _ w).1 hmatch).trans hvalue) w1
  exact ⟨hwf _, hbase _, by rw [if_pos hlen, henc, hw]⟩

theorem hasRow_encA22 (op : BitVec 1) (n : Nat) {k : BitVec 22}
    (hrow : opcodeRows[n]? = some ⟨name, 0xFE0E#16, value, fun w w1 => mk (fieldK22 w w1)⟩ :=
      by rfl)
    (hvalue : encA22First op 0#22 = value := by rfl) (hlen : instrWords value = 2 := by rfl)
    (henc : encode (mk k) = encA22 op k := by rfl) : HasRow (mk k) :=
  .twoWords (List.mem_of_getElem? hrow)
    ((Row.matches_iff _ _).2 ((encA22First_masked op k).trans hvalue)) hlen henc
    (congrArg mk (fieldK22_encA22 op k))

end

/-! ## Every row -/

theorem rowsTwoRegisters_build : ∀ row ∈ rowsTwoRegisters, row.BuildsItsWords := by
  simp only [rowsTwoRegisters, List.forall_mem_cons, List.not_mem_nil, false_imp_iff, implies_true,
    and_true]
  exact ⟨builds_fixed, (formatRW 0b00000001#8).builds, formatRM16.builds,
    (formatRM8 0#1 0#1).builds, (formatRM8 0#1 1#1).builds, (formatRM8 1#1 0#1).builds,
    (formatRM8 1#1 1#1).builds, (formatRR 0b000001#6).builds, (formatRR 0b000010#6).builds,
    (formatRR 0b000011#6).builds, (formatRR 0b000100#6).builds, (formatRR 0b000101#6).builds,
    (formatRR 0b000110#6).builds, (formatRR 0b000111#6).builds, (formatRR 0b001000#6).builds,
    (formatRR 0b001001#6).builds, (formatRR 0b001010#6).builds, (formatRR 0b001011#6).builds⟩

theorem rowsImmediate_build : ∀ row ∈ rowsImmediate, row.BuildsItsWords := by
  simp only [rowsImmediate, List.forall_mem_cons, List.not_mem_nil, false_imp_iff, implies_true,
    and_true]
  exact ⟨(formatRI8 0b0011#4).builds, (formatRI8 0b0100#4).builds, (formatRI8 0b0101#4).builds,
    (formatRI8 0b0110#4).builds, (formatRI8 0b0111#4).builds⟩

theorem rowsDisplacement_build : ∀ row ∈ rowsDisplacement, row.BuildsItsWords := by
  simp only [rowsDisplacement, List.forall_mem_cons, List.not_mem_nil, false_imp_iff, implies_true,
    and_true]
  exact ⟨(formatRQ 0#1 0#1).builds, (formatRQ 0#1 1#1).builds, (formatRQ 1#1 0#1).swap.builds,
    (formatRQ 1#1 1#1).swap.builds⟩

theorem rowsLoad_build : ∀ row ∈ rowsLoad, row.BuildsItsWords := by
  simp only [rowsLoad, List.forall_mem_cons, List.not_mem_nil, false_imp_iff, implies_true,
    and_true]
  have load (low : BitVec 4) := formatR1 0b1001000#7 low
  exact ⟨(load 0b0000#4).builds_twoWords, (load 0b0001#4).builds, (load 0b0010#4).builds,
    (load 0b1001#4).builds, (load 0b1010#4).builds, (load 0b1100#4).builds, (load 0b1101#4).builds,
    (load 0b1110#4).builds, (load 0b0100#4).builds, (load 0b0101#4).builds, (load 0b1111#4).builds⟩

theorem rowsStore_build : ∀ row ∈ rowsStore, row.BuildsItsWords := by
  simp only [rowsStore, List.forall_mem_cons, List.not_mem_nil, false_imp_iff, implies_true,
    and_true]
  have store (low : BitVec 4) := formatR1 0b1001001#7 low
  exact ⟨(store 0b0000#4).builds_twoWords (mk := fun r k => .sts k r), (store 0b0001#4).builds,
    (store 0b0010#4).builds, (store 0b1001#4).builds, (store 0b1010#4).builds,
    (store 0b1100#4).builds, (store 0b1101#4).builds, (store 0b1110#4).builds,
    (store 0b1111#4).builds⟩

theorem rowsOneRegister_build : ∀ row ∈ rowsOneRegister, row.BuildsItsWords := by
  simp only [rowsOneRegister, List.forall_mem_cons, List.not_mem_nil, false_imp_iff, implies_true,
    and_true]
  have one (low : BitVec 4) := formatR1 0b1001010#7 low
  exact ⟨(one 0b0000#4).builds, (one 0b0001#4).builds, (one 0b0010#4).builds,
    (one 0b0011#4).builds, (one 0b0101#4).builds, (one 0b0110#4).builds, (one 0b0111#4).builds,
    (one 0b1010#4).builds⟩

theorem rowsControl_build : ∀ row ∈ rowsControl, row.BuildsItsWords := by
  simp only [rowsControl, List.forall_mem_cons, List.not_mem_nil, false_imp_iff, implies_true,
    and_true]
  exact ⟨(formatSB 0#1).builds, (formatSB 1#1).builds, builds_fixed, builds_fixed, builds_fixed,
    builds_fixed, builds_fixed, builds_fixed, builds_fixed, builds_fixed, builds_fixed,
    builds_encA22 0#1, builds_encA22 1#1⟩

theorem rowsWordAndIo_build : ∀ row ∈ rowsWordAndIo, row.BuildsItsWords := by
  simp only [rowsWordAndIo, List.forall_mem_cons, List.not_mem_nil, false_imp_iff, implies_true,
    and_true]
  exact ⟨(formatIW 0b10010110#8).builds, (formatIW 0b10010111#8).builds, (formatIOB 0b00#2).builds,
    (formatIOB 0b01#2).builds, (formatIOB 0b10#2).builds, (formatIOB 0b11#2).builds,
    (formatRR 0b100111#6).builds, (formatIO 0#1).builds, (formatIO 1#1).swap.builds⟩

theorem rowsRelative_build : ∀ row ∈ rowsRelative, row.BuildsItsWords := by
  simp only [rowsRelative, List.forall_mem_cons, List.not_mem_nil, false_imp_iff, implies_true,
    and_true]
  exact ⟨(formatRel12 0b1100#4).builds, (formatRel12 0b1101#4).builds, (formatRI8 0b1110#4).builds,
    (formatBR 0#1).swap.builds, (formatBR 1#1).swap.builds, (formatRB 0b00#2).builds,
    (formatRB 0b01#2).builds, (formatRB 0b10#2).builds, (formatRB 0b11#2).builds⟩

theorem opcodeRows_build : ∀ row ∈ opcodeRows, row.BuildsItsWords := by
  simp only [opcodeRows, List.forall_mem_append]
  exact ⟨⟨⟨⟨⟨⟨⟨⟨rowsTwoRegisters_build, rowsImmediate_build⟩, rowsDisplacement_build⟩,
    rowsLoad_build⟩, rowsStore_build⟩, rowsOneRegister_build⟩, rowsControl_build⟩, rowsWordAndIo_build⟩,
    rowsRelative_build⟩

/-! ## Every base instruction -/

/-- Each base instruction with its format and the place of its row in the list. -/
theorem hasRow_of_base : ∀ i : Instr, i.wellFormed = true → canonical i = i → HasRow i
  | .mov _ _, _, _ => (formatRR 0b001011#6).hasRow 17 rfl
  | .movw _ _, h, _ => (formatRW 0b00000001#8).hasRow 1 h
  | .ldi _ _, h, _ => (formatRI8 0b1110#4).hasRow 79 h
  | .ldX _, _, _ => (formatR1 0b1001000#7 0b1100#4).hasRow 32
  | .ldXInc _, _, _ => (formatR1 0b1001000#7 0b1101#4).hasRow 33
  | .ldXDec _, _, _ => (formatR1 0b1001000#7 0b1110#4).hasRow 34
  | .ldYInc _, _, _ => (formatR1 0b1001000#7 0b1001#4).hasRow 30
  | .ldYDec _, _, _ => (formatR1 0b1001000#7 0b1010#4).hasRow 31
  | .lddY _ _, _, _ => (formatRQ 0#1 1#1).hasRow 24 rfl
  | .ldZInc _, _, _ => (formatR1 0b1001000#7 0b0001#4).hasRow 28
  | .ldZDec _, _, _ => (formatR1 0b1001000#7 0b0010#4).hasRow 29
  | .lddZ _ _, _, _ => (formatRQ 0#1 0#1).hasRow 23 rfl
  | .lds _ _, _, _ => (formatR1 0b1001000#7 0b0000#4).hasRow_twoWords 27
  | .stX _, _, _ => (formatR1 0b1001001#7 0b1100#4).hasRow 43
  | .stXInc _, _, _ => (formatR1 0b1001001#7 0b1101#4).hasRow 44
  | .stXDec _, _, _ => (formatR1 0b1001001#7 0b1110#4).hasRow 45
  | .stYInc _, _, _ => (formatR1 0b1001001#7 0b1001#4).hasRow 41
  | .stYDec _, _, _ => (formatR1 0b1001001#7 0b1010#4).hasRow 42
  | .stdY _ _, _, _ => (formatRQ 1#1 1#1).swap.hasRow 26 rfl
  | .stZInc _, _, _ => (formatR1 0b1001001#7 0b0001#4).hasRow 39
  | .stZDec _, _, _ => (formatR1 0b1001001#7 0b0010#4).hasRow 40
  | .stdZ _ _, _, _ => (formatRQ 1#1 0#1).swap.hasRow 25 rfl
  | .sts _ _, _, _ => (formatR1 0b1001001#7 0b0000#4).hasRow_twoWords 38 (mk := fun r k => .sts k r)
  | .lpmR0, _, _ => hasRow_fixed 64
  | .lpmZ _, _, _ => (formatR1 0b1001000#7 0b0100#4).hasRow 35
  | .lpmZInc _, _, _ => (formatR1 0b1001000#7 0b0101#4).hasRow 36
  | .spm, _, _ => hasRow_fixed 65
  | .inp _ _, _, _ => (formatIO 0#1).hasRow 75 rfl
  | .out _ _, _, _ => (formatIO 1#1).swap.hasRow 76 rfl
  | .push _, _, _ => (formatR1 0b1001001#7 0b1111#4).hasRow 46
  | .pop _, _, _ => (formatR1 0b1001000#7 0b1111#4).hasRow 37
  | .rjmp _, _, _ => (formatRel12 0b1100#4).hasRow 77
  | .ijmp, _, _ => hasRow_fixed 57
  | .jmp _, _, _ => hasRow_encA22 0#1 66
  | .rcall _, _, _ => (formatRel12 0b1101#4).hasRow 78
  | .icall, _, _ => hasRow_fixed 58
  | .call _, _, _ => hasRow_encA22 1#1 67
  | .ret, _, _ => hasRow_fixed 59
  | .reti, _, _ => hasRow_fixed 60
  | .cpse _ _, _, _ => (formatRR 0b000100#6).hasRow 10 rfl
  | .cp _ _, _, _ => (formatRR 0b000101#6).hasRow 11 rfl
  | .cpc _ _, _, _ => (formatRR 0b000001#6).hasRow 7 rfl
  | .cpi _ _, h, _ => (formatRI8 0b0011#4).hasRow 18 h
  | .sbrc _ _, _, _ => (formatRB 0b10#2).hasRow 84 rfl
  | .sbrs _ _, _, _ => (formatRB 0b11#2).hasRow 85 rfl
  | .sbic _ _, _, _ => (formatIOB 0b01#2).hasRow 71 rfl
  | .sbis _ _, _, _ => (formatIOB 0b11#2).hasRow 73 rfl
  | .brbs _ _, _, _ => (formatBR 0#1).swap.hasRow 80 rfl
  | .brbc _ _, _, _ => (formatBR 1#1).swap.hasRow 81 rfl
  | .sbi _ _, _, _ => (formatIOB 0b10#2).hasRow 72 rfl
  | .cbi _ _, _, _ => (formatIOB 0b00#2).hasRow 70 rfl
  | .lsr _, _, _ => (formatR1 0b1001010#7 0b0110#4).hasRow 52
  | .ror _, _, _ => (formatR1 0b1001010#7 0b0111#4).hasRow 53
  | .asr _, _, _ => (formatR1 0b1001010#7 0b0101#4).hasRow 51
  | .swap _, _, _ => (formatR1 0b1001010#7 0b0010#4).hasRow 49
  | .bset _, _, _ => (formatSB 0#1).hasRow 55
  | .bclr _, _, _ => (formatSB 1#1).hasRow 56
  | .bst _ _, _, _ => (formatRB 0b01#2).hasRow 83 rfl
  | .bld _ _, _, _ => (formatRB 0b00#2).hasRow 82 rfl
  | .add _ _, _, _ => (formatRR 0b000011#6).hasRow 9 rfl
  | .adc _ _, _, _ => (formatRR 0b000111#6).hasRow 13 rfl
  | .adiw _ _, h, _ => (formatIW 0b10010110#8).hasRow 68 h
  | .sub _ _, _, _ => (formatRR 0b000110#6).hasRow 12 rfl
  | .subi _ _, h, _ => (formatRI8 0b0101#4).hasRow 20 h
  | .sbc _ _, _, _ => (formatRR 0b000010#6).hasRow 8 rfl
  | .sbci _ _, h, _ => (formatRI8 0b0100#4).hasRow 19 h
  | .sbiw _ _, h, _ => (formatIW 0b10010111#8).hasRow 69 h
  | .and _ _, _, _ => (formatRR 0b001000#6).hasRow 14 rfl
  | .andi _ _, h, _ => (formatRI8 0b0111#4).hasRow 22 h
  | .or _ _, _, _ => (formatRR 0b001010#6).hasRow 16 rfl
  | .ori _ _, h, _ => (formatRI8 0b0110#4).hasRow 21 h
  | .eor _ _, _, _ => (formatRR 0b001001#6).hasRow 15 rfl
  | .com _, _, _ => (formatR1 0b1001010#7 0b0000#4).hasRow 47
  | .neg _, _, _ => (formatR1 0b1001010#7 0b0001#4).hasRow 48
  | .inc _, _, _ => (formatR1 0b1001010#7 0b0011#4).hasRow 50
  | .dec _, _, _ => (formatR1 0b1001010#7 0b1010#4).hasRow 54
  | .mul _ _, _, _ => (formatRR 0b100111#6).hasRow 74 rfl
  | .muls _ _, h, _ => formatRM16.hasRow 2 h
  | .mulsu _ _, h, _ => (formatRM8 0#1 0#1).hasRow 3 h
  | .fmul _ _, h, _ => (formatRM8 0#1 1#1).hasRow 4 h
  | .fmuls _ _, h, _ => (formatRM8 1#1 0#1).hasRow 5 h
  | .fmulsu _ _, h, _ => (formatRM8 1#1 1#1).hasRow 6 h
  | .nop, _, _ => hasRow_fixed 0
  | .sleep, _, _ => hasRow_fixed 61
  | .wdr, _, _ => hasRow_fixed 63
  | .brk, _, _ => hasRow_fixed 62
  | .ldY _, _, h | .ldZ _, _, h | .stY _, _, h | .stZ _, _, h | .breq _, _, h | .brne _, _, h
  | .brcs _, _, h | .brcc _, _, h | .brsh _, _, h | .brlo _, _, h | .brmi _, _, h
  | .brpl _, _, h | .brge _, _, h | .brlt _, _, h | .brhs _, _, h | .brhc _, _, h
  | .brts _, _, h | .brtc _, _, h | .brvs _, _, h | .brvc _, _, h | .brie _, _, h
  | .brid _, _, h | .lsl _, _, h | .rol _, _, h | .sec, _, h | .clc, _, h | .sen, _, h
  | .cln, _, h | .sez, _, h | .clz, _, h | .sei, _, h | .cli, _, h | .ses, _, h | .cls, _, h
  | .sev, _, h | .clv, _, h | .sett, _, h | .clt, _, h | .seh, _, h | .clh, _, h
  | .sbr _ _, _, h | .cbr _ _, _, h | .tst _, _, h | .clr _, _, h | .ser _, _, h => nomatch h

end Sys2Proof
end

section
/-! PROOFS. What the decoder and the encoder say of each other, and the lengths of instructions
(30_encoding.md R71 to R74, R79, R80). -/
namespace Sys2Proof

/-! ## Names that share a word (R79, R80) -/

theorem encode_canonical (i : Instr) : encode (canonical i) = encode i := by cases i <;> rfl

theorem wellFormed_canonical (i : Instr) : (canonical i).wellFormed = i.wellFormed := by
  cases i <;> rfl

theorem canonical_canonical (i : Instr) : canonical (canonical i) = canonical i := by
  cases i <;> rfl

theorem canonical_namedSet (s : BitNo) : canonical (namedSet s) = .bset s := by
  fin_cases s <;> rfl

theorem canonical_namedClear (s : BitNo) : canonical (namedClear s) = .bclr s := by
  fin_cases s <;> rfl

theorem canonical_namedBranchSet (s : BitNo) (k : BitVec 7) :
    canonical (namedBranchSet s k) = .brbs s k := by
  fin_cases s <;> rfl

theorem canonical_namedBranchClear (s : BitNo) (k : BitVec 7) :
    canonical (namedBranchClear s k) = .brbc s k := by
  fin_cases s <;> rfl

/-- The narrow name of an instruction is a name of the same base instruction. -/
theorem canonical_narrowName (i : Instr) : canonical (narrowName i) = canonical i := by
  cases i with
  | bset s => exact canonical_namedSet s
  | bclr s => exact canonical_namedClear s
  | brbs s k => exact canonical_namedBranchSet s k
  | brbc s k => exact canonical_namedBranchClear s k
  | add d r | adc d r | and d r | eor d r | ldi d r | lddY d r | lddZ d r | stdY d r | stdZ d r =>
    rw [narrowName]
    split_ifs with h
    · rw [h]; rfl
    · rfl
  | _ => rfl

/-- A name that the decoder gave is the decoder's name. -/
theorem decoderSpelling_narrowName {i : Instr} (hbase : canonical i = i) :
    decoderSpelling (narrowName i) = narrowName i := by
  rw [decoderSpelling, canonical_narrowName, hbase]

theorem encode_narrowName (i : Instr) : encode (narrowName i) = encode i := by
  rw [← encode_canonical, canonical_narrowName, encode_canonical]

theorem wellFormed_narrowName (i : Instr) : (narrowName i).wellFormed = i.wellFormed := by
  rw [← wellFormed_canonical, canonical_narrowName, wellFormed_canonical]

/-! ## Rows -/

/-- Of two rows that match one word neither stands before the other: rows at two places clash. -/
theorem not_lt_of_matches_both {w : Word} {j k : Nat} {p q : Row} (hp : opcodeRows[j]? = some p)
    (hq : opcodeRows[k]? = some q) (hpw : p.matches w = true) (hqw : q.matches w = true) :
    ¬ j < k := by
  intro hjk
  obtain ⟨hj, rfl⟩ := List.getElem?_eq_some_iff.1 hp
  obtain ⟨hk, rfl⟩ := List.getElem?_eq_some_iff.1 hq
  have hclash := List.pairwise_iff_getElem.1 rows_clash j k hj hk hjk
  rw [not_matches_of_clash hclash hpw] at hqw
  cases hqw

/-- Every well-formed instruction's words are built back into its base instruction. -/
theorem hasRow_canonical {i : Instr} (hwf : i.wellFormed = true) : HasRow (canonical i) :=
  hasRow_of_base _ ((wellFormed_canonical i).trans hwf) (canonical_canonical i)

/-! ## Lengths (R74) -/

theorem instrWords_eq_one_or_two (w : Word) : instrWords w = 1 ∨ instrWords w = 2 := by
  unfold instrWords
  split_ifs <;> simp

/-- The fixed bits of LDS, STS, JMP and CALL. -/
def twoWordPatterns : List (Word × Word) :=
  [(0xFE0F#16, 0x9000#16), (0xFE0F#16, 0x9200#16), (0xFE0E#16, 0x940C#16), (0xFE0E#16, 0x940E#16)]

theorem instrWords_eq_two_iff (w : Word) :
    instrWords w = 2 ↔ ∃ p ∈ twoWordPatterns, w &&& p.1 = p.2 := by
  simp only [twoWordPatterns, List.exists_mem_cons_iff, List.not_mem_nil, false_and, exists_false,
    or_false]
  unfold instrWords
  split_ifs <;> simp [*]

/-- The rows whose words have a second word are those of the four patterns. -/
theorem twoWord_rows : ∀ row ∈ opcodeRows,
    instrWords row.value = 2 ↔ (row.mask, row.value) ∈ twoWordPatterns := by
  decide +kernel

theorem rows_of_twoWordPatterns : ∀ p ∈ twoWordPatterns,
    ∃ row ∈ opcodeRows, (row.mask, row.value) = p := by
  simp only [twoWordPatterns, List.forall_mem_cons, List.not_mem_nil, false_imp_iff, implies_true,
    and_true]
  exact ⟨⟨_, List.mem_of_getElem? (i := 27) rfl, rfl⟩, ⟨_, List.mem_of_getElem? (i := 38) rfl, rfl⟩,
    ⟨_, List.mem_of_getElem? (i := 66) rfl, rfl⟩, ⟨_, List.mem_of_getElem? (i := 67) rfl, rfl⟩⟩

/-- A word of two words matches a row, whose words all are of two words. -/
theorem exists_row_of_twoWords {w : Word} (h : instrWords w = 2) :
    ∃ row, rowOf w = some row ∧ instrWords row.value = 2 := by
  obtain ⟨p, hp, hw⟩ := (instrWords_eq_two_iff w).1 h
  obtain ⟨row, hmem, rfl⟩ := rows_of_twoWordPatterns p hp
  exact ⟨row, rowOf_of_matches hmem ((Row.matches_iff row w).2 hw), (twoWord_rows row hmem).2 hp⟩

/-- The words of a row are as long as its fixed bits say. -/
theorem instrWords_of_rowOf {w : Word} {row : Row} (h : rowOf w = some row) :
    instrWords w = instrWords row.value := by
  obtain ⟨hmem, hmatch⟩ := rowOf_some h
  rcases instrWords_eq_one_or_two row.value with hone | htwo
  · rcases instrWords_eq_one_or_two w with hw | hw
    · rw [hw, hone]
    · obtain ⟨q, hq, hlen⟩ := exists_row_of_twoWords hw
      rw [Option.some.inj (h.symm.trans hq), hw, hlen]
  · rw [htwo, instrWords_eq_two_iff]
    exact ⟨_, (twoWord_rows row hmem).1 htwo, (Row.matches_iff row w).1 hmatch⟩

/-- A reserved word counts as one word. -/
theorem instrWords_of_reserved {w : Word} (h : rowOf w = none) : instrWords w = 1 := by
  refine (instrWords_eq_one_or_two w).resolve_right fun htwo => ?_
  obtain ⟨row, hrow, _⟩ := exists_row_of_twoWords htwo
  rw [h] at hrow
  cases hrow

/-- LDS, STS, JMP and CALL. -/
def Instr.isTwoWord : Instr → Bool
  | .lds _ _ | .sts _ _ | .jmp _ | .call _ => true
  | _ => false

theorem Instr.isTwoWord_iff (i : Instr) : i.isTwoWord = true ↔
    (∃ d k, i = .lds d k) ∨ (∃ k r, i = .sts k r) ∨ (∃ k, i = .jmp k) ∨ ∃ k, i = .call k := by
  cases i <;> simp [isTwoWord]

theorem length_encode (i : Instr) : (encode i).length = if i.isTwoWord then 2 else 1 := by
  cases i <;> rfl

/-! ## Decoding what was encoded -/

theorem decodeWords_of_rowOf {w w1 : Word} {row : Row} (h : rowOf w = some row) :
    decodeWords w w1 = .ok (narrowName (row.build w w1)) := by
  rw [decodeWords, h]

theorem decodeWords_of_reserved {w : Word} (h : rowOf w = none) (w1 : Word) :
    decodeWords w w1 = .error (.reserved w) := by
  rw [decodeWords, h]

/-- The words of a well-formed instruction decode to it under the decoder's name, and the first of
them tells how many there are; the word after one word does not count. -/
theorem decodeWords_of_encode {i : Instr} (hwf : i.wellFormed = true) {w w1 : Word}
    (h : encode i = [w] ∨ encode i = [w, w1]) :
    decodeWords w w1 = .ok (decoderSpelling i) ∧ instrWords w = (encode i).length := by
  rw [← encode_canonical] at h ⊢
  obtain ⟨hmem, hmatch, hlen, henc, hbuild⟩ | ⟨hmem, hmatch, hlen, henc, hbuild⟩ :=
    hasRow_canonical hwf
  all_goals
    have hrow := rowOf_of_matches hmem hmatch
    have hwords := (instrWords_of_rowOf hrow).trans hlen
  · obtain rfl : _ = w := by simpa [henc] using h
    rw [decodeWords_of_rowOf hrow, hbuild, henc]
    exact ⟨rfl, hwords⟩
  · obtain ⟨rfl, rfl⟩ : _ = w ∧ _ = w1 := by simpa [henc] using h
    rw [decodeWords_of_rowOf hrow, hbuild, henc]
    exact ⟨rfl, hwords⟩

/-- A well-formed instruction has one word or two. -/
theorem encode_eq_one_or_two {i : Instr} (hwf : i.wellFormed = true) :
    (∃ w, encode i = [w]) ∨ ∃ w w1, encode i = [w, w1] := by
  rw [← encode_canonical]
  obtain ⟨_, _, _, henc, _⟩ | ⟨_, _, _, henc, _⟩ := hasRow_canonical hwf
  · exact .inl ⟨_, henc⟩
  · exact .inr ⟨_, _, henc⟩

/-! ## Decoding bytes (R73) -/

theorem word_of_bytes (w : Word) : w.extractLsb' 8 8 ++ w.extractLsb' 0 8 = w := by
  have happend : w.extractLsb' 8 8 ++ w.extractLsb' 0 8 = w.extractLsb' 0 16 :=
    BitVec.extractLsb'_append_extractLsb'_eq_extractLsb' rfl
  rw [happend, BitVec.extractLsb'_eq_self]

theorem decodeBytes_of_oneWord {w : Word} (h : instrWords w = 1) (rest : List Byte) :
    decodeBytes (wordBytes w ++ rest) = (decodeWords w 0#16).map (·, rest) := by
  simp only [wordBytes, List.cons_append, List.nil_append, decodeBytes, word_of_bytes]
  rw [if_neg (by rw [h]; decide)]

theorem decodeBytes_of_twoWords {w : Word} (h : instrWords w = 2) (w1 : Word) (rest : List Byte) :
    decodeBytes (wordBytes w ++ (wordBytes w1 ++ rest)) = (decodeWords w w1).map (·, rest) := by
  simp only [wordBytes, List.cons_append, List.nil_append, decodeBytes, word_of_bytes, h, if_true]

/-! ## Encoding what was decoded -/

theorem of_decodeWords {w w1 : Word} {i : Instr} (h : decodeWords w w1 = .ok i) :
    i.wellFormed = true ∧ decoderSpelling i = i ∧
      encode i = if instrWords w = 2 then [w, w1] else [w] := by
  obtain ⟨row, hrow, rfl⟩ := decodeWords_ok h
  obtain ⟨hmem, hmatch⟩ := rowOf_some hrow
  obtain ⟨hwf, hbase, henc⟩ := opcodeRows_build row hmem w w1 hmatch
  rw [wellFormed_narrowName, encode_narrowName, instrWords_of_rowOf hrow]
  exact ⟨hwf, decoderSpelling_narrowName hbase, henc⟩

end Sys2Proof
end

section
/-! PROOFS. The classes of R84 of 30_encoding.md: the rows of the opcode list and the classes
together hold every word, and no word of a class has a row. A class is written as a row, of which
only the fixed bits count, and three words lie in a class's fixed bits but have a row. -/
namespace Sys2Proof

/-! ## Rows that hold every word -/

/-- The row fixes no bit below n. -/
def Row.freeBelow (n : Nat) (row : Row) : Bool :=
  row.mask.toNat % 2 ^ n == 0 && row.value.toNat % 2 ^ n == 0

/-- The row allows a word whose bit n is b. -/
def Row.allows (n : Nat) (b : Bool) (row : Row) : Bool :=
  (b && row.mask.getLsbD n) == row.value.getLsbD n

/-- Of the words whose bits from n up the rows allow, each matches one of the rows: one row leaves
the bits below n free, or it is so for either value of the next bit. -/
def coverBelow : Nat → List Row → Bool
  | 0, rows => rows.any (·.freeBelow 0)
  | n + 1, rows => rows.any (·.freeBelow (n + 1)) ||
      (coverBelow n (rows.filter (·.allows n false)) &&
        coverBelow n (rows.filter (·.allows n true)))

theorem Row.matches_of_allows {row : Row} {w : Word}
    (h : ∀ i, row.allows i (w.getLsbD i) = true) : row.matches w = true := by
  rw [Row.matches_iff]
  apply BitVec.eq_of_getLsbD_eq
  intro i _
  rw [BitVec.getLsbD_and]
  exact beq_iff_eq.1 (h i)

/-- A word has no bit from 16 up that a row could disallow. -/
theorem Row.allows_of_ge {i : Nat} (hi : 16 ≤ i) (row : Row) (b : Bool) :
    row.allows i b = true := by
  simp [Row.allows, BitVec.getLsbD_of_ge _ _ hi]

theorem testBit_eq_false_of_mod {x n i : Nat} (h : x % 2 ^ n = 0) (hi : i < n) :
    x.testBit i = false := by
  have hbit := Nat.testBit_mod_two_pow x n i
  rw [h, Nat.zero_testBit] at hbit
  simpa [hi] using hbit.symm

theorem Row.allows_of_freeBelow {n i : Nat} {row : Row} (h : row.freeBelow n = true) (hi : i < n)
    (b : Bool) : row.allows i b = true := by
  simp only [Row.freeBelow, Bool.and_eq_true, beq_iff_eq] at h
  have hmask : row.mask.getLsbD i = false := testBit_eq_false_of_mod h.1 hi
  have hvalue : row.value.getLsbD i = false := testBit_eq_false_of_mod h.2 hi
  simp [Row.allows, hmask, hvalue]

/-- The rows allow the bits of w from n up. -/
def AllowedFrom (w : Word) (n : Nat) (rows : List Row) : Prop :=
  ∀ row ∈ rows, ∀ i, n ≤ i → row.allows i (w.getLsbD i) = true

theorem exists_match_of_any_freeBelow {w : Word} {n : Nat} {rows : List Row}
    (hfree : rows.any (·.freeBelow n) = true) (hhigh : AllowedFrom w n rows) :
    ∃ row ∈ rows, row.matches w = true := by
  obtain ⟨row, hmem, hfree⟩ := List.any_eq_true.1 hfree
  exact ⟨row, hmem, Row.matches_of_allows fun i =>
    if hi : i < n then Row.allows_of_freeBelow hfree hi _
    else hhigh row hmem i (Nat.le_of_not_lt hi)⟩

/-- The rows that also allow the next bit of w. -/
theorem AllowedFrom.filter {w : Word} {n : Nat} {rows : List Row}
    (hhigh : AllowedFrom w (n + 1) rows) :
    AllowedFrom w n (rows.filter (·.allows n (w.getLsbD n))) := by
  intro row hmem i hi
  obtain ⟨hrow, hbit⟩ := List.mem_filter.1 hmem
  rcases Nat.eq_or_lt_of_le hi with rfl | hlt
  · exact hbit
  · exact hhigh row hrow i hlt

/-- What `coverBelow` says. -/
theorem exists_match_of_coverBelow {w : Word} {n : Nat} {rows : List Row}
    (hcover : coverBelow n rows = true) (hhigh : AllowedFrom w n rows) :
    ∃ row ∈ rows, row.matches w = true := by
  induction n generalizing rows with
  | zero => exact exists_match_of_any_freeBelow hcover hhigh
  | succ n ih =>
    rw [coverBelow, Bool.or_eq_true, Bool.and_eq_true] at hcover
    rcases hcover with hfree | ⟨hfalse, htrue⟩
    · exact exists_match_of_any_freeBelow hfree hhigh
    · have hnext : coverBelow n (rows.filter (·.allows n (w.getLsbD n))) = true := by
        cases w.getLsbD n <;> assumption
      obtain ⟨row, hmem, hmatch⟩ := ih hnext hhigh.filter
      exact ⟨row, (List.mem_filter.1 hmem).1, hmatch⟩

/-! ## The classes of R84 -/

/-- The words with these fixed bits; it builds nothing that counts. -/
def wordClass (mask value : Word) : Row := ⟨"", mask, value, fun _ _ => .nop⟩

/-- The low digits of the reserved words among the loads. -/
def reservedLoads : List Word := [0x3#16, 0x6#16, 0x7#16, 0x8#16, 0xB#16]
/-- The low digits of the reserved words among the stores. -/
def reservedStores : List Word := [0x3#16, 0x4#16, 0x5#16, 0x6#16, 0x7#16, 0x8#16, 0xB#16]
/-- The digits of the reserved words among RET to SPM. -/
def reservedControls : List Word :=
  [0x20#16, 0x30#16, 0x40#16, 0x50#16, 0x60#16, 0x70#16, 0xB0#16, 0xD0#16, 0xF0#16]

/-- The classes of R84 by their fixed bits. -/
def reservedClasses : List Row :=
  wordClass 0xFF00#16 0x0000#16 ::
  reservedLoads.map (fun n => wordClass (0xFE00#16 ||| 0x000F#16) (0x9000#16 ||| n)) ++
  reservedStores.map (fun n => wordClass (0xFE00#16 ||| 0x000F#16) (0x9200#16 ||| n)) ++
  [wordClass 0xFE0F#16 0x9404#16, wordClass 0xFE0F#16 0x940B#16, wordClass 0xFE0F#16 0x9409#16] ++
  reservedControls.map (fun n => wordClass (0xFF0F#16 ||| 0x00F0#16) (0x9508#16 ||| n)) ++
  [wordClass 0xF808#16 0xF808#16]

/-- NOP, IJMP and ICALL: the words that R84 takes out of its classes. -/
def exceptedWords : List Word := [0x0000#16, 0x9409#16, 0x9509#16]

theorem rows_and_classes_cover : coverBelow 16 (opcodeRows ++ reservedClasses) = true := by
  decide +kernel

/-- A row and a class have no word in common, but that three rows are of an excepted word alone. -/
theorem classes_clash_or_excepted : (opcodeRows.all fun row => reservedClasses.all fun c =>
    row.clash c || (row.mask == BitVec.allOnes 16 && exceptedWords.contains row.value)) = true := by
  decide +kernel

theorem excepted_have_rows :
    (exceptedWords.all fun w => (rowOf w).isSome && !Claims.reservedWord w) = true := by
  decide +kernel

/-! ## The classes as `reservedWord` writes them -/

/-- Two disjoint sets of bits are fixed where each is. -/
theorem and_or_eq_or_iff {w m d u n : Word} (hm : (u ||| n) &&& m = u) (hd : (u ||| n) &&& d = n) :
    w &&& (m ||| d) = u ||| n ↔ w &&& m = u ∧ w &&& d = n := by
  constructor
  · intro h
    have hleft : (m ||| d) &&& m = m := by ext i hi; simp +contextual
    have hright : (m ||| d) &&& d = d := by ext i hi; simp +contextual
    constructor
    · rw [← hm, ← h, BitVec.and_assoc, hleft]
    · rw [← hd, ← h, BitVec.and_assoc, hright]
  · rintro ⟨rfl, rfl⟩
    exact BitVec.and_or_distrib_left ..

theorem exists_digit_class_iff {w m d u : Word} {digits : List Word}
    (h : (digits.all fun n => (u ||| n) &&& m == u && (u ||| n) &&& d == n) = true) :
    (∃ c ∈ digits.map (fun n => wordClass (m ||| d) (u ||| n)), c.matches w = true) ↔
      w &&& m = u ∧ w &&& d ∈ digits := by
  simp only [List.all_eq_true, Bool.and_eq_true, beq_iff_eq] at h
  constructor
  · rintro ⟨c, hc, hmatch⟩
    obtain ⟨n, hn, rfl⟩ := List.mem_map.1 hc
    obtain ⟨hm, hd⟩ := (and_or_eq_or_iff (h n hn).1 (h n hn).2).1 ((Row.matches_iff _ w).1 hmatch)
    exact ⟨hm, hd ▸ hn⟩
  · rintro ⟨hm, hd⟩
    exact ⟨_, List.mem_map_of_mem hd, (Row.matches_iff _ w).2
      ((and_or_eq_or_iff (h _ hd).1 (h _ hd).2).2 ⟨hm, rfl⟩)⟩

theorem exists_class_iff (w : Word) : (∃ c ∈ reservedClasses, c.matches w = true) ↔
    w &&& 0xFF00#16 = 0x0000#16 ∨
    (w &&& 0xFE00#16 = 0x9000#16 ∧ w &&& 0x000F#16 ∈ reservedLoads) ∨
    (w &&& 0xFE00#16 = 0x9200#16 ∧ w &&& 0x000F#16 ∈ reservedStores) ∨
    w &&& 0xFE0F#16 = 0x9404#16 ∨ w &&& 0xFE0F#16 = 0x940B#16 ∨ w &&& 0xFE0F#16 = 0x9409#16 ∨
    (w &&& 0xFF0F#16 = 0x9508#16 ∧ w &&& 0x00F0#16 ∈ reservedControls) ∨
    w &&& 0xF808#16 = 0xF808#16 := by
  rw [← exists_digit_class_iff (digits := reservedLoads) (by decide),
    ← exists_digit_class_iff (digits := reservedStores) (by decide),
    ← exists_digit_class_iff (digits := reservedControls) (by decide)]
  simp only [reservedClasses, List.mem_append, List.mem_cons, List.not_mem_nil, or_false,
    or_and_right, exists_or, exists_eq_left, or_assoc, Row.matches_iff, wordClass]

/-- R84: a reserved word lies in a class and is none of the three that have a row. -/
theorem reservedWord_iff (w : Word) : Claims.reservedWord w = true ↔
    w ∉ exceptedWords ∧ ∃ c ∈ reservedClasses, c.matches w = true := by
  have hexcepted : w ∈ exceptedWords → Claims.reservedWord w = false := fun hw => by
    have hboth := List.all_eq_true.1 excepted_have_rows w hw
    simpa using (Bool.and_eq_true_iff.1 hboth).2
  rw [exists_class_iff]
  constructor
  · intro h
    refine ⟨fun hw => Bool.false_ne_true ((hexcepted hw).symm.trans h), ?_⟩
    simp only [Claims.reservedWord, Bool.or_eq_true, Bool.and_eq_true, beq_iff_eq, bne_iff_ne,
      List.contains_iff_mem] at h
    simp only [reservedLoads, reservedStores, reservedControls]
    tauto
  · rintro ⟨hw, h⟩
    simp only [exceptedWords, List.mem_cons, List.not_mem_nil, or_false, not_or] at hw
    simp only [Claims.reservedWord, Bool.or_eq_true, Bool.and_eq_true, beq_iff_eq, bne_iff_ne,
      List.contains_iff_mem]
    simp only [reservedLoads, reservedStores, reservedControls] at h
    tauto

/-! ## Reserved words are the words without a row -/

theorem rowOf_of_reservedWord {w : Word} (h : Claims.reservedWord w = true) : rowOf w = none := by
  obtain ⟨hnot, c, hc, hmatch⟩ := (reservedWord_iff w).1 h
  refine Option.eq_none_iff_forall_not_mem.2 fun row hrow => ?_
  obtain ⟨hmem, hrowMatch⟩ := rowOf_some hrow
  have hpair := List.all_eq_true.1 (List.all_eq_true.1 classes_clash_or_excepted row hmem) c hc
  rcases Bool.or_eq_true_iff.1 hpair with hclash | hfixed
  · rw [not_matches_of_clash hclash hrowMatch] at hmatch
    cases hmatch
  · obtain ⟨hmask, hvalue⟩ := Bool.and_eq_true_iff.1 hfixed
    have hw := (Row.matches_iff row w).1 hrowMatch
    rw [beq_iff_eq.1 hmask, BitVec.and_allOnes] at hw
    exact hnot (hw ▸ List.contains_iff_mem.1 hvalue)

theorem exists_row_of_not_reservedWord {w : Word} (h : Claims.reservedWord w = false) :
    ∃ row, rowOf w = some row := by
  obtain ⟨c, hc, hmatch⟩ := exists_match_of_coverBelow (w := w) rows_and_classes_cover
    fun row _ i hi => row.allows_of_ge hi _
  rcases List.mem_append.1 hc with hrow | hclass
  · exact ⟨c, rowOf_of_matches hrow hmatch⟩
  · have hexcepted : w ∈ exceptedWords := by
      by_contra hnot
      rw [(reservedWord_iff w).2 ⟨hnot, c, hclass, hmatch⟩] at h
      cases h
    have hboth := List.all_eq_true.1 excepted_have_rows w hexcepted
    exact Option.isSome_iff_exists.1 (Bool.and_eq_true_iff.1 hboth).1

end Sys2Proof
end

section
/-! PROOFS. An instruction and the base instruction whose word it shares have one meaning
(30_encoding.md R79, R80), and the boundary at which the instruction at pc runs (60_exceptions.md
R324). -/
namespace Sys2Proof.Machine

/-! ## The names whose meaning is not written as the base instruction's -/

/-- LD and ST with Y or Z are LDD and STD with displacement 0. -/
theorem displaced_zero (s : State) (p : Pointer) : displaced s p 0#6 = s.pointer p := by
  simp [displaced]

theorem shiftLeft_one_and_one (a : Byte) : a <<< 1 &&& 1#8 = 0#8 := by
  apply BitVec.eq_of_getLsbD_eq
  intro i _
  cases i <;> simp [BitVec.getLsbD_one]

theorem shiftLeft_one_eq_add (a : Byte) : a <<< 1 = a + a := by
  apply BitVec.eq_of_toNat_eq
  simp only [BitVec.toNat_shiftLeft, BitVec.toNat_add, Nat.shiftLeft_eq]
  omega

/-- A shift through the carry is an addition with it. -/
theorem withBit_shiftLeft_one (a : Byte) (c : Bool) :
    withBit (a <<< 1) 0 c = a + a + BitVec.ofNat 8 (carryNat c) := by
  rw [← shiftLeft_one_eq_add]
  cases c with
  | true => exact (BitVec.add_eq_or_of_and_eq_zero _ _ (shiftLeft_one_and_one a)).symm
  | false =>
    apply byte_ext
    intro b
    rw [bitOf_withBit]
    split_ifs with hb
    · subst hb; simp [bitOf, carryNat]
    · simp [carryNat]

/-- An addition of a byte to itself has the flags of the left shift of it (R18): C and H are bits 7
and 3 of the byte. -/
theorem aluResult_addFlags_self (s : State) (d : Reg) (a : Byte) (c : Bool) :
    aluResult s d (addFlags a a c) = shiftLeftResult s d a (addFlags a a c).res := by
  have hc : (addFlags a a c).c = bitOf a 7 := by
    rw [addFlags_c]; cases bitOf a 7 <;> simp
  have hh : (addFlags a a c).h = bitOf a 3 := by
    rw [addFlags_h]; cases bitOf a 3 <;> simp
  have hv : (addFlags a a c).v = (bitOf (addFlags a a c).res 7 != bitOf a 7) := by
    rw [addFlags_v]; cases bitOf a 7 <;> simp
  rw [← msb_eq_bitOf] at hv
  have hself : addFlags a a c = ⟨(addFlags a a c).res, (addFlags a a c).h,
    (addFlags a a c).res.msb != (addFlags a a c).v, (addFlags a a c).v, (addFlags a a c).res.msb,
    (addFlags a a c).res == 0#8, (addFlags a a c).c⟩ := rfl
  rw [hc, hh, hv] at hself
  exact congrArg (aluResult s d) hself

theorem setReg_reg_self (s : State) (d : Reg) : s.setReg d (s.reg d) = s := by
  simp [State.setReg, State.reg]

/-- ADD Rd,Rd is LSL Rd. -/
theorem execAdd_self (d : Reg) (s : State) : execAdd d d s = execLsl d s := by
  have hres : (addFlags (s.reg d) (s.reg d) false).res = s.reg d <<< 1 := by
    rw [addFlags_res, shiftLeft_one_eq_add]; exact BitVec.add_zero _
  rw [execAdd, aluResult_addFlags_self, hres]; rfl

/-- ADC Rd,Rd is ROL Rd. -/
theorem execAdc_self (d : Reg) (s : State) : execAdc d d s = execRol d s := by
  rw [execAdc, aluResult_addFlags_self, addFlags_res, ← withBit_shiftLeft_one]; rfl

/-- AND Rd,Rd is TST Rd. -/
theorem execAnd_self (d : Reg) (s : State) : execAnd d d s = execTst d s := by
  rw [execAnd, BitVec.and_self, logicResult, setReg_reg_self]; rfl

/-- EOR Rd,Rd is CLR Rd. -/
theorem execEor_self (d : Reg) (s : State) : execEor d d s = execClr d s := by
  rw [execEor, if_pos rfl]; rfl

/-! ## All names -/

theorem exec_canonical (i : Instr) (s : State) : exec (canonical i) s = exec i s := by
  cases i with
  | lsl d => exact execAdd_self d s
  | rol d => exact execAdc_self d s
  | tst d => exact execAnd_self d s
  | clr d => exact execEor_self d s
  | ldY d => exact congrArg (loadFrom s d · 1) (displaced_zero s .y)
  | ldZ d => exact congrArg (loadFrom s d · 1) (displaced_zero s .z)
  | stY r => exact congrArg (storeTo s r · 1) (displaced_zero s .y)
  | stZ r => exact congrArg (storeTo s r · 1) (displaced_zero s .z)
  | _ => rfl

/-- The name that the decoder gives a word does not matter to its meaning. -/
theorem exec_decoderSpelling (i : Instr) (s : State) : exec (decoderSpelling i) s = exec i s := by
  rw [← exec_canonical, decoderSpelling, canonical_narrowName, canonical_canonical, exec_canonical]

/-! ## The boundary of an instruction -/

section
variable {s : State} (hreset : (envInput s).reset = false) (hstop : s.stopped = false)
  (hnone : s.sreg.getLsbD 7 = false ∨ s.irqDelay = true ∨ (envInput s).requests = [])
  (hawake : s.sleeping = false)
include hreset hstop hnone hawake

/-- No reset, not stopped, no interrupt to take, awake: an instruction runs (R324). -/
theorem boundaryEvent_instruction : boundaryEvent (envInput s) s = .instruction := by
  have hno : s.interruptible = false ∨ mostUrgent (envInput s).requests = none := by
    rcases hnone with hi | hdelay | hreq
    · have hflag : s.flag flagI = false := hi
      exact .inl (by rw [State.interruptible, hflag, Bool.false_and])
    · exact .inl (by rw [State.interruptible, hdelay, Bool.not_true, Bool.and_false])
    · exact .inr (by rw [hreq]; rfl)
  rcases boundaryEvent_cases (envInput s) s with ⟨hr, _⟩ | ⟨_, hs, _⟩ | ⟨n, _, _, hint, hn, _⟩ |
    ⟨_, _, _, ⟨hs, _⟩ | ⟨_, he⟩⟩
  case inr.inr.inr.inr => exact he
  all_goals simp_all

theorem step_eq_runInstruction :
    step s = runInstruction { Claims.afterInput s with irqDelay := false } := by
  rw [step, atBoundary, boundaryEvent_instruction hreset hstop hnone hawake]; rfl

/-- The step is the meaning of the instruction that the words at pc and pc + 1 decode to. -/
theorem step_of_decodeWords {i : Instr}
    (h : decodeWords (s.progWord s.pc) (s.progWord (s.pc + 1#14)) = .ok i) :
    step s = exec i { Claims.afterInput s with irqDelay := false } := by
  have hfetch : fetch { Claims.afterInput s with irqDelay := false } = .next i := by
    change fetch s = .next i
    rw [fetch, h]
  rw [step_eq_runInstruction hreset hstop hnone hawake, runInstruction, hfetch, bind_next]

/-- A word without a row refuses the step. -/
theorem step_of_reserved (h : rowOf (s.progWord s.pc) = none) :
    step s = .refused (.illegalInstruction (s.progWord s.pc)) := by
  have hfetch : fetch { Claims.afterInput s with irqDelay := false } =
      .refused (.illegalInstruction (s.progWord s.pc)) := by
    change fetch s = _
    rw [fetch, decodeWords_of_reserved h]
  rw [step_eq_runInstruction hreset hstop hnone hawake, runInstruction, hfetch, bind_refused]

end

end Sys2Proof.Machine
end

section
/-! PROOFS. The statements about decoding, encoding, lengths and the step of an instruction. -/
namespace Sys2Proof.Proofs
open Sys2Proof.Machine

/-- Settles O1: the first word has a row, and the row builds the base instruction back. -/
theorem decodingInvertsEncoding : Obligations.DecodingInvertsEncoding := by
  intro i rest hwf
  rcases encode_eq_one_or_two hwf with ⟨w, henc⟩ | ⟨w, w1, henc⟩
  · obtain ⟨hdecode, hlen⟩ := decodeWords_of_encode (w1 := 0#16) hwf (.inl henc)
    rw [henc] at hlen ⊢
    rw [List.flatMap_singleton, decodeBytes_of_oneWord hlen, hdecode]
    rfl
  · obtain ⟨hdecode, hlen⟩ := decodeWords_of_encode hwf (.inr henc)
    rw [henc] at hlen ⊢
    rw [List.flatMap_cons, List.flatMap_singleton, List.append_assoc, decodeBytes_of_twoWords hlen,
      hdecode]
    rfl

/-- Settles O2: every row builds instructions with the words that it matches. -/
theorem encodingInvertsDecoding : Obligations.EncodingInvertsDecoding := fun _ _ _ => of_decodeWords

/-- Settles O3: any two rows have a bit that both fix and fix differently. -/
theorem noWordMatchesTwoRows : Obligations.NoWordMatchesTwoRows :=
  fun _ _ _ _ _ hp hq hpw hqw => Fin.ext (Nat.le_antisymm
    (Nat.le_of_not_lt (not_lt_of_matches_both hq hp hqw hpw))
    (Nat.le_of_not_lt (not_lt_of_matches_both hp hq hpw hqw)))

/-- Settles O4: the rows and the classes hold every word, and clash but on the excepted words. -/
theorem reservedWordsAreTheClassesOfR84 : Obligations.ReservedWordsAreTheClassesOfR84 := by
  refine fun w w1 => ⟨fun h => decodeWords_of_reserved (rowOf_of_reservedWord h) w1, fun h => ?_⟩
  obtain ⟨row, hrow⟩ := exists_row_of_not_reservedWord h
  exact ⟨_, decodeWords_of_rowOf hrow⟩

/-- Settles O5: the length of a word is that of its row, and each instruction has a row. -/
theorem instructionLengthsAreR74 : Obligations.InstructionLengthsAreR74 := by
  refine ⟨fun _ => rfl, ?_, fun _ => instrWords_of_reserved⟩
  intro i w rest hwf henc
  refine ⟨?_, ?_⟩
  · rcases encode_eq_one_or_two hwf with ⟨v, hv⟩ | ⟨v, v1, hv⟩
    all_goals obtain ⟨rfl, _⟩ := List.cons.inj (henc.symm.trans hv)
    · exact (decodeWords_of_encode (w1 := 0#16) hwf (.inl hv)).2
    · exact (decodeWords_of_encode hwf (.inr hv)).2
  · rw [length_encode, ← Instr.isTwoWord_iff]
    cases i.isTwoWord <;> decide

/-- Settles O6: each word has the row that the list gives it. -/
theorem sampleWordsDecode : Obligations.SampleWordsDecode :=
  ⟨fun _ => rfl, fun _ => rfl, fun _ => rfl, fun _ => rfl, fun _ => rfl, fun _ => rfl, fun _ => rfl,
    fun _ => rfl, fun _ => rfl, fun _ => rfl, rfl, rfl, fun _ => rfl⟩

/-- Settles O7, name by name: four of the names compute what the base instruction does of two equal
operands, four take the displacement 0, and the others are the base instruction at once. -/
theorem sharedWordsHaveOneMeaning : Obligations.SharedWordsHaveOneMeaning := exec_canonical

/-- Settles O13: the boundary lets the instruction run, and the fetch reads it. -/
theorem stepRunsDecodedInstruction : Obligations.StepRunsDecodedInstruction :=
  fun _ _ hreset hstop hnone hawake => step_of_decodeWords hreset hstop hnone hawake

/-- Settles O14: the words decode to the decoder's name, which means the same. -/
theorem stepRunsEncodedInstruction : Obligations.StepRunsEncodedInstruction := by
  intro s i hwf hreset hstop hnone hawake henc
  have hdecode := (decodeWords_of_encode hwf henc).1
  rw [step_of_decodeWords hreset hstop hnone hawake hdecode, exec_decoderSpelling]

/-- Settles O15: a reserved word has no row, so the fetch refuses it. -/
theorem stepRefusesReservedWords : Obligations.StepRefusesReservedWords :=
  fun _ hreset hstop hnone hawake hword =>
    step_of_reserved hreset hstop hnone hawake (rowOf_of_reservedWord hword)

end Sys2Proof.Proofs
end

section
/-! PROOFS. The operand forms of the data transfer instructions, in the vocabulary of the
statements: a load or store that goes on, one that stops, and the pointer forms that R134 of
40_data_transfer.md refuses. -/
namespace Sys2Proof.Machine
open Sys2Proof.Claims

variable {s t : State} {p : Pointer} {a b : DataAddr} {r : Reg} {v : Byte} {n : Nat}

/-! ## Pairs and pointers (10_state.md R12) -/

theorem setPointer_eq (s : State) (p : Pointer) (a : DataAddr) :
    s.setPointer p a = { s with regs := pointerSet s.regs (pointerLow p) a } := by
  rw [pointerSet, BitVec.setWidth_eq_extractLsb' (by decide),
    BitVec.setWidth_ushiftRight_eq_extractLsb]
  rfl

theorem setPair_pair_eq (s : State) (d r : Reg) : s.setPair d (s.pair r) =
    { s with regs := (s.regs.set d s.regs[r]).set (d + 1 : Reg) s.regs[(r + 1 : Reg)] } := by
  rw [State.setPair, State.pair, byte_of_append_low, byte_of_append_high]
  rfl

/-! ## Reads and writes of data space (20_memory.md R44, R45) -/

theorem memRead_of_byteAt (h : byteAt s a = some v) : memRead s a = .next (v, afterRead s a) := by
  have e := memRead_eq s a
  rwa [h] at e

theorem memRead_of_byteAt_none (h : byteAt s a = none) : memRead s a = .fault (readFault a) := by
  have e := memRead_eq s a
  rwa [h] at e

theorem memWrite_of_stored (h : stored s a v = some t) : memWrite s a v = .next t := by
  have e := memWrite_eq s a v
  rwa [h] at e

@[simp] theorem afterRead_regs (s : State) (a : DataAddr) : (afterRead s a).regs = s.regs := by
  rw [afterRead]
  split <;> rfl

@[simp] theorem afterRead_pc (s : State) (a : DataAddr) : (afterRead s a).pc = s.pc := by
  rw [afterRead]
  split <;> rfl

theorem dataPlace_ioDataAddr (a : IoAddr) : dataPlace (ioDataAddr a) = .io a := by
  have ha := ioDataAddr_toNat a
  have hlt := a.isLt
  rw [dataPlace_io (by omega) (by omega), ha, Nat.add_sub_cancel, BitVec.ofNat_toNat,
    BitVec.setWidth_eq]

theorem memRead_ioDataAddr (s : State) (a : IoAddr) :
    memRead s (ioDataAddr a) = .next (ioRead s a) := by
  rw [memRead, dataPlace_ioDataAddr]

theorem memWrite_ioDataAddr (s : State) (a : IoAddr) (v : Byte) :
    memWrite s (ioDataAddr a) v = ioWrite s a v := by
  rw [memWrite, dataPlace_ioDataAddr]

/-- A read of an I/O register does not stop (20_memory.md R48). -/
theorem byteAt_ioDataAddr_ne_none (s : State) (a : IoAddr) : byteAt s (ioDataAddr a) ≠ none := by
  intro h
  have e := memRead_of_byteAt_none h
  rw [memRead_ioDataAddr] at e
  cases e

/-! ## Loads and stores at an address -/

theorem loadFrom_of_byteAt (h : byteAt s a = some v) (d : Reg) (n : Nat) :
    loadFrom s d a n = .next (afterReg (afterRead s a) d v n) := by
  rw [loadFrom, memRead_of_byteAt h]
  rfl

theorem loadFrom_of_byteAt_none (h : byteAt s a = none) (d : Reg) (n : Nat) :
    loadFrom s d a n = .fault (readFault a) := by
  rw [loadFrom, memRead_of_byteAt_none h]
  rfl

theorem storeTo_of_stored (h : stored s a s.regs[r] = some t) (n : Nat) :
    storeTo s r a n = .next { t with pc := s.pc + BitVec.ofNat 14 n } := by
  rw [storeTo, State.reg, memWrite_of_stored h, bind_next, State.advance, stored_pc h]

theorem storeTo_of_stored_none (h : stored s a s.regs[r] = none) (n : Nat) :
    storeTo s r a n = writeStop a := by
  rw [storeTo, State.reg, memWrite_of_stored_none h, writeStop_bind]

theorem execInp_eq_loadFrom (s : State) (d : Reg) (a : IoAddr) :
    execInp d a s = loadFrom s d (ioDataAddr a) 1 := by
  rw [loadFrom, memRead_ioDataAddr]
  rfl

theorem execOut_eq_storeTo (s : State) (r : Reg) (a : IoAddr) :
    execOut a r s = storeTo s r (ioDataAddr a) 1 := by
  rw [storeTo, memWrite_ioDataAddr]
  rfl

/-- A pop raises SP and then loads from it (20_memory.md R57). -/
theorem execPop_eq_loadFrom (s : State) (d : Reg) :
    execPop d s = loadFrom { s with sp := s.sp + 1#12 } d ((s.sp + 1#12).setWidth 16) 1 := rfl

theorem execPush_of_pushed (h : pushed s s.regs[r] = some t) :
    execPush r s = .next { t with pc := s.pc + 1#14 } := by
  have hpush := push8_of_pushed h
  obtain ⟨hpc, -⟩ := push8_keeps hpush
  rw [execPush, State.reg, hpush, bind_next, State.advance, hpc]

/-! ## The forms that R134 refuses -/

theorem overlaps_iff (p : Pointer) (r : Reg) :
    overlaps p r = true ↔ r = pointerLow p ∨ r = pointerLow p + 1 := by
  simp [overlaps]

theorem isOwnAddress_iff (p : Pointer) (a : DataAddr) : isOwnAddress p a = true ↔
    a.toNat = (pointerLow p).val ∨ a.toNat = (pointerLow p).val + 1 := by
  cases p <;> simp [isOwnAddress, regAddr, pointerLow, ← BitVec.toNat_inj]

theorem guardPointer_of_overlaps (h : overlaps p r = true) (a : DataAddr) (go : Res State) :
    guardPointer p r a go = .refused .pointerRegisterOverlap := by
  rw [guardPointer, if_pos h]

theorem guardPointer_of_isOwnAddress (hr : overlaps p r = false) (ha : isOwnAddress p a = true)
    (go : Res State) : guardPointer p r a go = .refused .pointerSelfAccess := by
  rw [guardPointer, hr, if_neg Bool.false_ne_true, if_pos ha]

theorem overlaps_eq_false (h1 : r ≠ pointerLow p) (h2 : r ≠ pointerLow p + 1) :
    overlaps p r = false :=
  Bool.eq_false_iff.2 fun h => ((overlaps_iff p r).1 h).elim h1 h2

/-- A pointer form clear of R134 goes on. -/
theorem guardPointer_of_apart (h : apart (pointerLow p) r a) (go : Res State) :
    guardPointer p r a go = go := by
  obtain ⟨hlow, hhigh, halow, hahigh⟩ := h
  have hown : isOwnAddress p a = false :=
    Bool.eq_false_iff.2 fun h => ((isOwnAddress_iff p a).1 h).elim halow hahigh
  rw [guardPointer, overlaps_eq_false hlow hhigh, hown, if_neg Bool.false_ne_true,
    if_neg Bool.false_ne_true]

/-! ## The forms that move a pointer (40_data_transfer.md R135) -/

/-- A load from a that leaves the pointer at b: the moving forms of LD once clear of R134. -/
def movingLoad (s : State) (p : Pointer) (d : Reg) (a b : DataAddr) : Res State :=
  (memRead s a).bind fun v => .next (((v.2.setPointer p b).setReg d v.1).advance 1)

/-- A store to a that leaves the pointer at b: the moving forms of ST once clear of R134. -/
def movingStore (s : State) (p : Pointer) (r : Reg) (a b : DataAddr) : Res State :=
  (memWrite s a (s.reg r)).bind fun t => .next ((t.setPointer p b).advance 1)

theorem loadPostInc_eq (s : State) (p : Pointer) (d : Reg) : loadPostInc s p d =
    guardPointer p d (s.pointer p) (movingLoad s p d (s.pointer p) (s.pointer p + 1#16)) := rfl

theorem loadPreDec_eq (s : State) (p : Pointer) (d : Reg) : loadPreDec s p d =
    guardPointer p d (s.pointer p - 1#16)
      (movingLoad s p d (s.pointer p - 1#16) (s.pointer p - 1#16)) := rfl

theorem storePostInc_eq (s : State) (p : Pointer) (r : Reg) : storePostInc s p r =
    guardPointer p r (s.pointer p) (movingStore s p r (s.pointer p) (s.pointer p + 1#16)) := rfl

theorem storePreDec_eq (s : State) (p : Pointer) (r : Reg) : storePreDec s p r =
    guardPointer p r (s.pointer p - 1#16)
      (movingStore s p r (s.pointer p - 1#16) (s.pointer p - 1#16)) := rfl

theorem movingLoad_of_byteAt (h : byteAt s a = some v) (p : Pointer) (d : Reg) (b : DataAddr) :
    movingLoad s p d a b = .next { afterRead s a with
      regs := (pointerSet s.regs (pointerLow p) b).set d v, pc := s.pc + 1#14 } := by
  rw [movingLoad, memRead_of_byteAt h, bind_next, setPointer_eq, afterRead_regs, State.setReg,
    State.advance, afterRead_pc]

theorem movingLoad_of_byteAt_none (h : byteAt s a = none) (p : Pointer) (d : Reg) (b : DataAddr) :
    movingLoad s p d a b = .fault (readFault a) := by
  rw [movingLoad, memRead_of_byteAt_none h, bind_fault]

theorem movingStore_of_stored (h : stored s a s.regs[r] = some t) (p : Pointer) (b : DataAddr) :
    movingStore s p r a b =
      .next { t with regs := pointerSet t.regs (pointerLow p) b, pc := s.pc + 1#14 } := by
  rw [movingStore, State.reg, memWrite_of_stored h, bind_next, setPointer_eq, State.advance,
    stored_pc h]

theorem movingStore_of_stored_none (h : stored s a s.regs[r] = none) (p : Pointer)
    (b : DataAddr) : movingStore s p r a b = writeStop a := by
  rw [movingStore, State.reg, memWrite_of_stored_none h, writeStop_bind]

/-! ## Loads from program memory (20_memory.md R53) -/

theorem progByte_of_lt {z : BitVec 16} (h : z.toNat < 0x8000) : progByte s z = .next
    (if z.getLsbD 0 then (s.progWord (BitVec.ofNat 14 (z.toNat / 2)) >>> 8).setWidth 8
      else (s.progWord (BitVec.ofNat 14 (z.toNat / 2))).setWidth 8) := by
  have hin : ¬ flashWords ≤ z.toNat / 2 := by rw [flashWords]; omega
  rw [progByte, if_neg hin, BitVec.setWidth_ushiftRight_eq_extractLsb,
    BitVec.setWidth_eq_extractLsb' (by decide)]

theorem progByte_of_ge (s : State) {z : BitVec 16} (h : 0x8000 ≤ z.toNat) :
    progByte s z = .fault (.programAddressOutOfRange z) := by
  have hout : flashWords ≤ z.toNat / 2 := by rw [flashWords]; omega
  rw [progByte, if_pos hout]

/-- LPM Rd,Z+ with Rd apart from Z (40_data_transfer.md R129). -/
theorem execLpmZInc_of_apart {d : Reg} (h1 : d ≠ 30) (h2 : d ≠ 31) (s : State) :
    execLpmZInc d s = (progByte s (s.pointer .z)).bind fun v =>
      .next { s with
        regs := (pointerSet s.regs 30 (s.pointer .z + 1#16)).set d v, pc := s.pc + 1#14 } := by
  have hz : overlaps .z d = false := overlaps_eq_false h1 h2
  simp only [execLpmZInc, hz, Bool.false_eq_true, if_false, setPointer_eq]
  rfl

end Sys2Proof.Machine
end

section
/-! PROOFS. The statements about the data transfer instructions. -/
namespace Sys2Proof.Proofs
open Sys2Proof.Machine Sys2Proof.Claims

/-- Settles O32: each is one write of the register file; MOVW writes the two bytes of the pair. -/
theorem registerMoves : Obligations.RegisterMoves := by
  intro s d r k
  refine ⟨rfl, fun _ _ => ?movw, rfl, rfl, ?swap⟩
  case movw =>
    change Host.Outcome.next ((s.setPair d (s.pair r)).advance 1) = _
    rw [setPair_pair_eq]
    rfl
  case swap =>
    rw [BitVec.setWidth_eq_extractLsb' (by decide), BitVec.setWidth_ushiftRight_eq_extractLsb]
    rfl

/-- Settles O39: the meaning of SPM is the refusal. -/
theorem spmIsRefused : Obligations.SpmIsRefused := fun _ => rfl

/-- Settles O33: all six forms are one load from the address. -/
theorem plainLoads : Obligations.PlainLoads := by
  intro s d q k i a n h
  have hexec : exec i s = loadFrom s d a n := by
    rcases h with ⟨rfl, rfl, rfl⟩ | ⟨rfl, rfl, rfl⟩ | ⟨rfl, rfl, rfl⟩ | ⟨rfl, rfl, rfl⟩ |
      ⟨rfl, rfl, rfl⟩ | ⟨rfl, rfl, rfl⟩ <;> rfl
  rw [hexec]
  exact ⟨fun v hv => loadFrom_of_byteAt hv d n, fun hnone => loadFrom_of_byteAt_none hnone d n⟩

/-- Settles O34: all six forms are one load that moves its pointer, past the checks of R134. -/
theorem movingPointerLoads : Obligations.MovingPointerLoads := by
  intro s d low i a b h hapart
  obtain ⟨p, rfl, hexec⟩ :
      ∃ p, low = pointerLow p ∧ exec i s = guardPointer p d a (movingLoad s p d a b) := by
    rcases h with ⟨rfl, rfl, rfl, rfl⟩ | ⟨rfl, rfl, rfl, rfl⟩ | ⟨rfl, rfl, rfl, rfl⟩ |
      ⟨rfl, rfl, rfl, rfl⟩ | ⟨rfl, rfl, rfl, rfl⟩ | ⟨rfl, rfl, rfl, rfl⟩
    exacts [⟨.x, rfl, loadPostInc_eq s .x d⟩, ⟨.x, rfl, loadPreDec_eq s .x d⟩,
      ⟨.y, rfl, loadPostInc_eq s .y d⟩, ⟨.y, rfl, loadPreDec_eq s .y d⟩,
      ⟨.z, rfl, loadPostInc_eq s .z d⟩, ⟨.z, rfl, loadPreDec_eq s .z d⟩]
  rw [hexec, guardPointer_of_apart hapart]
  exact ⟨fun v hv => movingLoad_of_byteAt hv p d b, fun hn => movingLoad_of_byteAt_none hn p d b⟩

/-- Settles O35: all six forms are one store to the address. -/
theorem plainStores : Obligations.PlainStores := by
  intro s r q k i a n h
  have hexec : exec i s = storeTo s r a n := by
    rcases h with ⟨rfl, rfl, rfl⟩ | ⟨rfl, rfl, rfl⟩ | ⟨rfl, rfl, rfl⟩ | ⟨rfl, rfl, rfl⟩ |
      ⟨rfl, rfl, rfl⟩ | ⟨rfl, rfl, rfl⟩ <;> rfl
  rw [hexec]
  exact ⟨fun t ht => storeTo_of_stored ht n, fun hnone => storeTo_of_stored_none hnone n⟩

/-- Settles O36: all six forms are one store that moves its pointer, past the checks of R134. -/
theorem movingPointerStores : Obligations.MovingPointerStores := by
  intro s r low i a b h hapart
  obtain ⟨p, rfl, hexec⟩ :
      ∃ p, low = pointerLow p ∧ exec i s = guardPointer p r a (movingStore s p r a b) := by
    rcases h with ⟨rfl, rfl, rfl, rfl⟩ | ⟨rfl, rfl, rfl, rfl⟩ | ⟨rfl, rfl, rfl, rfl⟩ |
      ⟨rfl, rfl, rfl, rfl⟩ | ⟨rfl, rfl, rfl, rfl⟩ | ⟨rfl, rfl, rfl, rfl⟩
    exacts [⟨.x, rfl, storePostInc_eq s .x r⟩, ⟨.x, rfl, storePreDec_eq s .x r⟩,
      ⟨.y, rfl, storePostInc_eq s .y r⟩, ⟨.y, rfl, storePreDec_eq s .y r⟩,
      ⟨.z, rfl, storePostInc_eq s .z r⟩, ⟨.z, rfl, storePreDec_eq s .z r⟩]
  rw [hexec, guardPointer_of_apart hapart]
  exact ⟨fun t ht => movingStore_of_stored ht p b, fun hn => movingStore_of_stored_none hn p b⟩

/-- Settles O37: every form begins with the checks of R134 that `guardPointer` makes, LPM Rd,Z+
with the first of them. -/
theorem pointerFormsRefusedByR134 : Obligations.PointerFormsRefusedByR134 := by
  refine ⟨fun s r => ?overlap, ?ownAddress⟩
  case overlap =>
    simp only [List.forall_mem_cons]
    refine ⟨fun h => ?x, fun h => ?y, fun h => ?z⟩
    case x =>
      have hover := guardPointer_of_overlaps ((overlaps_iff .x r).2 h)
      exact ⟨hover _ _, hover _ _, hover _ _, hover _ _, List.forall_mem_nil _⟩
    case y =>
      have hover := guardPointer_of_overlaps ((overlaps_iff .y r).2 h)
      exact ⟨hover _ _, hover _ _, hover _ _, hover _ _, List.forall_mem_nil _⟩
    case z =>
      have hz := (overlaps_iff .z r).2 h
      have hover := guardPointer_of_overlaps hz
      exact ⟨hover _ _, hover _ _, if_pos hz, hover _ _, hover _ _, List.forall_mem_nil _⟩
  case ownAddress =>
    intro s r low a i h1 h2 hown h
    obtain ⟨p, rfl, go, hexec⟩ :
        ∃ p, low = pointerLow p ∧ ∃ go, exec i s = guardPointer p r a go := by
      rcases h with ⟨rfl, rfl, rfl | rfl⟩ | ⟨rfl, rfl, rfl | rfl⟩ | ⟨rfl, rfl, rfl | rfl⟩ |
        ⟨rfl, rfl, rfl | rfl⟩ | ⟨rfl, rfl, rfl | rfl⟩ | ⟨rfl, rfl, rfl | rfl⟩
      exacts [⟨.x, rfl, _, loadPostInc_eq s .x r⟩, ⟨.x, rfl, _, storePostInc_eq s .x r⟩,
        ⟨.x, rfl, _, loadPreDec_eq s .x r⟩, ⟨.x, rfl, _, storePreDec_eq s .x r⟩,
        ⟨.y, rfl, _, loadPostInc_eq s .y r⟩, ⟨.y, rfl, _, storePostInc_eq s .y r⟩,
        ⟨.y, rfl, _, loadPreDec_eq s .y r⟩, ⟨.y, rfl, _, storePreDec_eq s .y r⟩,
        ⟨.z, rfl, _, loadPostInc_eq s .z r⟩, ⟨.z, rfl, _, storePostInc_eq s .z r⟩,
        ⟨.z, rfl, _, loadPreDec_eq s .z r⟩, ⟨.z, rfl, _, storePreDec_eq s .z r⟩]
    rw [hexec, guardPointer_of_isOwnAddress (overlaps_eq_false h1 h2)
      ((isOwnAddress_iff p a).2 hown)]

/-- Settles O38: each form is one byte read of program memory at Z, and its writes. LPM is
LPM R0,Z. -/
theorem programMemoryLoads : Obligations.ProgramMemoryLoads := by
  rintro s d _ _ rfl rfl
  have hlpm : ∀ d, execLpmZ d s = (progByte s (pairAt s 30)).bind fun v =>
      .next (afterReg s d v 1) := fun _ => rfl
  have hinc : d ≠ 30 → d ≠ 31 → exec (.lpmZInc d) s = (progByte s (pairAt s 30)).bind fun v =>
      .next { s with
        regs := (pointerSet s.regs 30 (pairAt s 30 + 1#16)).set d v, pc := s.pc + 1#14 } :=
    fun h1 h2 => execLpmZInc_of_apart h1 h2 s
  refine ⟨fun hin => ?within, fun hout => ?beyond⟩
  case within =>
    rw [progByte_of_lt hin] at hinc hlpm
    exact ⟨hlpm 0, hlpm d, hinc⟩
  case beyond =>
    rw [progByte_of_ge s hout] at hinc hlpm
    exact ⟨hlpm 0, hlpm d, hinc⟩

/-- Settles O40: IN is a load from the register's data address, OUT a store to it. -/
theorem inAndOut : Obligations.InAndOut := by
  intro s r a
  have hin : exec (.inp r a) s = loadFrom s r (ioDataAddr a) 1 := execInp_eq_loadFrom s r a
  have hout : exec (.out a r) s = storeTo s r (ioDataAddr a) 1 := execOut_eq_storeTo s r a
  rw [hin, hout]
  exact ⟨fun v hv => loadFrom_of_byteAt hv r 1, byteAt_ioDataAddr_ne_none s a,
    fun t ht => storeTo_of_stored ht 1, fun hnone => storeTo_of_stored_none hnone 1⟩

/-- Settles O41: PUSH as `pushed` says, POP as a load from SP raised. -/
theorem pushAndPop : Obligations.PushAndPop := by
  intro s r
  refine ⟨fun t ht => execPush_of_pushed ht, ?value, ?stop⟩
  case value =>
    rintro _ v rfl hv
    exact (execPop_eq_loadFrom s r).trans (loadFrom_of_byteAt hv r 1)
  case stop =>
    rintro _ rfl hnone
    exact (execPop_eq_loadFrom s r).trans (loadFrom_of_byteAt_none hnone r 1)

end Sys2Proof.Proofs
end

section
/-! PROOFS. The operations of the branch instructions in the vocabulary of the statements: targets
and skips as values of pc, calls and returns wherever the stack lies. -/
namespace Sys2Proof.Machine
open Sys2Proof.Claims

variable {s t : State}

/-! ## Targets (41_branch.md R187, R189, R190) -/

/-- R187 over the integers: the displacement is signed, the sum is taken modulo 2^14. -/
theorem relTarget_toNat {w : Nat} (s : State) (k : BitVec w) :
    ((relTarget s k).toNat : Int) = ((s.pc.toNat : Int) + 1 + k.toInt) % 16384 := by
  simp only [relTarget, BitVec.signExtend, BitVec.toNat_add, BitVec.toNat_ofInt, BitVec.toNat_ofNat]
  omega

theorem pc_add_one_toNat (s : State) :
    ((s.pc + 1#14).toNat : Int) = ((s.pc.toNat : Int) + 1) % 16384 := by
  simp only [BitVec.toNat_add, BitVec.toNat_ofNat]
  omega

/-- A conditional branch moves pc and nothing else. -/
theorem branchIf_target (s : State) (b : BitNo) (x : Bool) (k : BitVec 7) :
    ∃ t : ProgAddr, branchIf s b x k = { s with pc := t } ∧
      (t.toNat : Int) = if s.sreg.getLsbD b = x then ((s.pc.toNat : Int) + 1 + k.toInt) % 16384
        else ((s.pc.toNat : Int) + 1) % 16384 := by
  refine ⟨if s.sreg.getLsbD b = x then relTarget s k else s.pc + 1#14, rfl, ?_⟩
  split
  · exact relTarget_toNat s k
  · exact pc_add_one_toNat s

theorem jumpTarget_of_lt {w : Nat} {k : BitVec w} (h : k.toNat < 16384) :
    jumpTarget k.toNat = .next (k.setWidth 14) :=
  jumpTarget_next.2 ⟨h, (BitVec.ofNat_toNat 14 k).symm⟩

theorem jumpTarget_of_ge {k : Nat} (h : 16384 ≤ k) :
    jumpTarget k = .fault (.jumpTargetOutOfRange k) :=
  if_pos h

/-! ## IJMP and ICALL: Z as the statements write it -/

theorem execIjmp_eq (s : State) :
    execIjmp s = (jumpTarget (pairAt s 30).toNat).bind fun k => .next { s with pc := k } := rfl

theorem execIcall_eq (s : State) :
    execIcall s = (jumpTarget (pairAt s 30).toNat).bind fun k => callTo s (s.pc + 1#14) k := rfl

/-! ## Calls (41_branch.md R153 to R155) -/

theorem callTo_of_pushedPC {a : ProgAddr} (h : pushedPC s a = some t) (k : ProgAddr) :
    callTo s a k = .next { t with pc := k } := by
  rw [callTo, pushPC_of_pushedPC h]
  rfl

/-! ## Returns (41_branch.md R156, R157) -/

@[simp] theorem afterRead_sp (s : State) (a : DataAddr) : (afterRead s a).sp = s.sp := by
  rw [afterRead]
  split <;> rfl

@[simp] theorem afterRead_sreg (s : State) (a : DataAddr) : (afterRead s a).sreg = s.sreg := by
  rw [afterRead]
  split <;> rfl

@[simp] theorem afterRead_irqDelay (s : State) (a : DataAddr) :
    (afterRead s a).irqDelay = s.irqDelay := by
  rw [afterRead]
  split <;> rfl

section
variable {u v : State} {a b : DataAddr} {hi lo : Byte}
  (hu : u = { s with sp := s.sp + 1#12 }) (ha : a = u.sp.setWidth 16)
  (hv : v = { afterRead u a with sp := s.sp + 2#12 }) (hb : b = v.sp.setWidth 16)

include hu ha in
/-- The first pop reads at SP + 1. -/
theorem pop8_eq_memRead : pop8 s = memRead u a := by
  subst hu ha
  rfl

include hu hv hb in
/-- The second pop reads at SP + 2. -/
theorem pop8_afterRead : pop8 (afterRead u a) = memRead v b := by
  have hsp : (afterRead u a).sp + 1#12 = s.sp + 2#12 := by
    rw [afterRead_sp, hu, BitVec.add_assoc]
    rfl
  rw [pop8_eq_memRead rfl rfl, hsp, hb, hv]

include hu ha hv hb

theorem popPC_of_byteAt (hhi : byteAt u a = some hi) (hlo : byteAt v b = some lo) :
    popPC s = .next ((hi ++ lo).setWidth 14, afterRead v b) := by
  rw [popPC, pop8_eq_memRead hu ha, memRead_of_byteAt hhi, bind_next, pop8_afterRead hu hv hb,
    memRead_of_byteAt hlo, bind_next]

omit hv hb in
theorem popPC_of_high_none (hhi : byteAt u a = none) : popPC s = .fault (readFault a) := by
  rw [popPC, pop8_eq_memRead hu ha, memRead_of_byteAt_none hhi, bind_fault]

theorem popPC_of_low_none (hhi : byteAt u a ≠ none) (hlo : byteAt v b = none) :
    popPC s = .fault (readFault b) := by
  obtain ⟨x, hx⟩ := Option.ne_none_iff_exists'.1 hhi
  rw [popPC, pop8_eq_memRead hu ha, memRead_of_byteAt hx, bind_next, pop8_afterRead hu hv hb,
    memRead_of_byteAt_none hlo, bind_fault]

end

/-- RET and RETI stop where their pop stops. -/
theorem returns_of_popPC_fault {e : Fault} (h : popPC s = .fault e) :
    execRet s = .fault e ∧ execReti s = .fault e := by
  rw [execRet, execReti, interruptReturn, h]
  exact ⟨rfl, rfl⟩

/-- I set by RETI, with the delay if it was 0 (60_exceptions.md R325, R328). -/
theorem writeSreg_set_flagI (s : State) : s.writeSreg (withBit s.sreg flagI true) =
    { s with sreg := s.sreg ||| 0x80#8, irqDelay := s.irqDelay || !s.sreg.getLsbD 7 } := by
  rw [State.writeSreg, bitOf_withBit, if_pos rfl, Bool.and_true]
  rfl

/-! ## Skips (41_branch.md R186) -/

/-- A skip moves pc and nothing else, on a condition that the statement writes as a proposition. -/
theorem skipIf_of_iff {c : Bool} {p : Prop} [Decidable p] (s : State) (h : c = true ↔ p) :
    skipIf s c = if p then { s with pc := skipTarget s } else { s with pc := s.pc + 1#14 } := by
  simp only [skipIf, h]
  split <;> rfl

/-- SBIC and SBIS name device registers only (20_memory.md R48, R51). -/
theorem ioRead_lowIoAddr (s : State) (a : LowIoAddr) : ioRead s (a.setWidth 6) =
    (Config.deviceDraw s.draws (a.setWidth 6), { s with draws := s.draws + 1 }) := by
  have hdev : coreOwned (a.setWidth 6) = false := (coreOwned_eq_false_iff _).2 <| by
    refine ⟨?_, ?_, ?_, ?_⟩ <;> bv_omega
  exact ioRead_device s hdev

end Sys2Proof.Machine
end

section
/-! PROOFS. The statements about branches, calls, returns and skips. -/
namespace Sys2Proof.Proofs
open Sys2Proof.Machine Sys2Proof.Claims

/-- Settles O42: the relative target as an integer, and the absolute targets that lie in the
flash. -/
theorem jumps : Obligations.Jumps := by
  refine ⟨fun s k => ⟨relTarget s k, rfl, relTarget_toNat s k⟩, fun s k hk => ?jmp, fun s hz => ?ijmp⟩
  case jmp =>
    change execJmp k s = _
    rw [execJmp, jumpTarget_of_lt hk]
    rfl
  case ijmp =>
    change execIjmp s = _
    rw [execIjmp_eq, jumpTarget_of_lt hz, bind_next]

/-- Settles O43: the target is looked at before anything else happens. -/
theorem jumpTargetsBeyondFlashStop : Obligations.JumpTargetsBeyondFlashStop := by
  refine ⟨fun s k hk => ?absolute, fun s hz => ?indirect⟩
  case absolute =>
    change execJmp k s = _ ∧ execCall k s = _
    rw [execJmp, execCall, jumpTarget_of_ge hk]
    exact ⟨rfl, rfl⟩
  case indirect =>
    change execIjmp s = _ ∧ execIcall s = _
    rw [execIjmp_eq, execIcall_eq, jumpTarget_of_ge hz]
    exact ⟨rfl, rfl⟩

/-- Settles O44: each is `callTo`, ICALL and CALL once their target is known to lie in the flash. -/
theorem calls : Obligations.Calls := by
  refine ⟨fun s t k h => callTo_of_pushedPC h _, fun s t hz h => ?icall, fun s t k hk h => ?call⟩
  case icall =>
    change execIcall s = _
    rw [execIcall_eq, jumpTarget_of_lt hz, bind_next, callTo_of_pushedPC h]
  case call =>
    change execCall k s = _
    rw [execCall, jumpTarget_of_lt hk, bind_next, callTo_of_pushedPC h]

/-- Settles O46: both pop the two bytes and go there; RETI then sets I. -/
theorem returns : Obligations.Returns := by
  intro s u v a b hu ha hv hb
  refine ⟨fun hi lo hhi hlo => ⟨?ret, ?reti⟩, fun hhi => ?high, fun hhi hlo => ?low⟩
  case ret =>
    change execRet s = _
    rw [execRet, popPC_of_byteAt hu ha hv hb hhi hlo]
    rfl
  case reti =>
    have hsreg : (afterRead v b).sreg = s.sreg := by simp [hv, hu]
    have hdelay : (afterRead v b).irqDelay = s.irqDelay := by simp [hv, hu]
    change interruptReturn s = _
    rw [interruptReturn, popPC_of_byteAt hu ha hv hb hhi hlo, bind_next, writeSreg_set_flagI, hsreg,
      hdelay]
    rfl
  case high => exact returns_of_popPC_fault (popPC_of_high_none hu ha hhi)
  case low => exact returns_of_popPC_fault (popPC_of_low_none hu ha hv hb hhi hlo)

/-- Settles O47: three conditions of one skip. -/
theorem registerSkips : Obligations.RegisterSkips := by
  rintro s d r b _ _ rfl rfl
  exact ⟨congrArg _ (skipIf_of_iff s beq_iff_eq), congrArg _ (skipIf_of_iff s Bool.not_eq_eq_eq_not),
    congrArg _ (skipIf_of_iff s Iff.rfl)⟩

/-- Settles O48: the skip happens in the state after the device read, which has the same program
memory. -/
theorem ioSkips : Obligations.IoSkips := by
  rintro s a b _ _ rfl rfl
  change Host.Outcome.next _ = _ ∧ Host.Outcome.next _ = _
  rw [ioRead_lowIoAddr]
  exact ⟨congrArg _ (skipIf_of_iff _ Bool.not_eq_eq_eq_not), congrArg _ (skipIf_of_iff _ Iff.rfl)⟩

/-- Settles O49: all twenty are `branchIf` with the flag and the value of the list. -/
theorem conditionalBranches : Obligations.ConditionalBranches := by
  intro s k i b v h
  have hexec : exec i s = .next (branchIf s b v k) := by
    simp only [List.mem_cons, Prod.mk.injEq, List.not_mem_nil, or_false, true_and] at h
    rcases h with ⟨rfl, rfl⟩ | ⟨rfl, rfl⟩ | ⟨rfl, rfl, rfl⟩ | ⟨rfl, rfl, rfl⟩ |
      ⟨rfl, rfl, rfl⟩ | ⟨rfl, rfl, rfl⟩ | ⟨rfl, rfl, rfl⟩ | ⟨rfl, rfl, rfl⟩ | ⟨rfl, rfl, rfl⟩ |
      ⟨rfl, rfl, rfl⟩ | ⟨rfl, rfl, rfl⟩ | ⟨rfl, rfl, rfl⟩ | ⟨rfl, rfl, rfl⟩ | ⟨rfl, rfl, rfl⟩ |
      ⟨rfl, rfl, rfl⟩ | ⟨rfl, rfl, rfl⟩ | ⟨rfl, rfl, rfl⟩ | ⟨rfl, rfl, rfl⟩ | ⟨rfl, rfl, rfl⟩ |
      ⟨rfl, rfl, rfl⟩ <;> rfl
  obtain ⟨t, ht, htarget⟩ := branchIf_target s b v k
  exact ⟨t, hexec.trans (congrArg _ ht), htarget⟩

end Sys2Proof.Proofs
end

section
/-! PROOFS. The operations of the bit and flag instructions in the vocabulary of the statements: one
bit put, a read and a write of one device register, the flags of the shifts, and the boundary after
an instruction that puts one flag. -/
namespace Sys2Proof.Machine
open Sys2Proof.Claims

variable {s : State}

/-! ## One bit of a byte -/

/-- A put of a bit that is clear adds it; a put of false changes nothing. -/
theorem withBit_of_clear {v : Byte} {b : BitNo} (h : bitOf v b = false) (x : Bool) :
    withBit v b x = v ||| (if x then 1#8 else 0#8) <<< b.val := by
  cases x with
  | true => rfl
  | false =>
    apply byte_ext
    intro c
    rw [bitOf_withBit]
    by_cases hc : c = b
    · simp [hc, h]
    · simp [hc]

theorem bitOf_shiftLeft_one_zero (a : Byte) : bitOf (a <<< 1) 0 = false := by
  simp [bitOf]

theorem bitOf_ushiftRight_one_seven (a : Byte) : bitOf (a >>> 1) 7 = false := by
  simp [bitOf]

/-- The arithmetic shift keeps bit 7 (42_bit_and_bit_test.md R206). -/
theorem withBit_ushiftRight_one_sign (a : Byte) :
    withBit (a >>> 1) 7 (bitOf a 7) = a.sshiftRight 1 := by
  apply byte_ext
  intro b
  have hb := b.isLt
  rw [bitOf_withBit, ← msb_eq_bitOf]
  simp only [bitOf, BitVec.getLsbD_ushiftRight, BitVec.getLsbD_sshiftRight]
  split_ifs with h7 hlt hlt
  · subst h7
    simp at hlt
  · simp
  · simp
  · exact absurd (Fin.ext (by change b.val = 7; omega)) h7

/-! ## Shifts with their flags (10_state.md R18) -/

theorem shiftLeftResult_eq (s : State) (d : Reg) (a res : Byte) :
    shiftLeftResult s d a res = afterRegSreg s d res (leftShiftSreg s.sreg a res) := by
  have hn : res.getLsbD 7 = res.msb := (msb_eq_bitOf res).symm
  rw [shiftLeftResult, aluResult, writeHSVNZC_eq _ _ (bne_eq_exclusive_or _ _), leftShiftSreg, hn,
    ← bne_eq_exclusive_or]
  rfl

theorem shiftRightResult_eq (s : State) (d : Reg) (a res : Byte) :
    shiftRightResult s d a res = afterRegSreg s d res (rightShiftSreg s.sreg a res) := by
  have hn : res.getLsbD 7 = res.msb := (msb_eq_bitOf res).symm
  rw [shiftRightResult, writeSVNZC_eq, rightShiftSreg, hn, ← bne_eq_exclusive_or]
  rfl

/-! ## Read and write of a device register (20_memory.md R51, R60) -/

/-- SBI and CBI name device registers only, and none whose write R49 refuses. -/
theorem ioWrite_lowIoAddr (s : State) (a : LowIoAddr) (v : Byte) :
    ioWrite s (a.setWidth 6) v = .next (deviceWrite s (a.setWidth 6) v) := by
  have hdev : coreOwned (a.setWidth 6) = false := (coreOwned_eq_false_iff _).2 <| by
    refine ⟨?_, ?_, ?_, ?_⟩ <;> bv_omega
  have hspmcr : a.setWidth 6 ≠ 0x37#6 := by bv_omega
  have hgicr : a.setWidth 6 ≠ 0x3B#6 := by bv_omega
  exact ioWrite_device s hdev
    (guardedWrite_eq_false (fun h => absurd h hspmcr) (fun h => absurd h hgicr))

/-- SBI and CBI: the byte read with one bit put is written back. -/
theorem ioUpdate_lowIoAddr (s : State) (a : LowIoAddr) (f : Byte → Byte) {v w : Byte}
    (hv : v = Config.deviceDraw s.draws (a.setWidth 6)) (hw : f v = w) :
    ((ioWrite (ioRead s (a.setWidth 6)).2 (a.setWidth 6) (f (ioRead s (a.setWidth 6)).1)).bind
      fun t => .next (t.advance 1)) = .next { s with
        draws := s.draws + 1, pc := s.pc + 1#14
        events := s.events ++ [.deviceWrite (a.setWidth 6) w]
        ioWritten := Memory.write .ioWritten s.ioWritten a.toNat w } := by
  have ha : (a.setWidth 6 : IoAddr).toNat = a.toNat := BitVec.toNat_setWidth_of_le (by decide)
  rw [ioRead_lowIoAddr, ← hv, hw, ioWrite_lowIoAddr, bind_next, deviceWrite, ha]
  rfl

/-! ## One flag of SREG (42_bit_and_bit_test.md R208, R209) -/

/-- Interrupts are delayed where the flag is I and rises (60_exceptions.md R325). -/
theorem putFlag_eq (s : State) (b : BitNo) (x : Bool) : putFlag s b x = { s with
    sreg := withBit s.sreg b x, pc := s.pc + 1#14
    irqDelay := s.irqDelay || (decide (b = 7) && x && !s.sreg.getLsbD 7) } := by
  have hI : bitOf s.sreg flagI = s.sreg.getLsbD 7 := rfl
  have hrise : (!bitOf s.sreg flagI && bitOf (withBit s.sreg b x) flagI) =
      (decide (b = 7) && x && !s.sreg.getLsbD 7) := by
    rw [bitOf_withBit, hI]
    by_cases hb : b = 7
    · simp [hb, flagI, Bool.and_comm]
    · simp [hb, flagI, Ne.symm hb]
  rw [putFlag, State.writeSreg, hrise]
  rfl

/-! ## The boundary after an instruction that puts a flag (60_exceptions.md R324, R325) -/

section
variable {i j : Instr} {b : BitNo} {x : Bool} {t : State} (hawake : s.sleeping = false)
  (hstop : s.stopped = false)
include hawake hstop

theorem step_eq_putFlag (hreset : (envInput s).reset = false)
    (hnone : s.sreg.getLsbD 7 = false ∨ s.irqDelay = true ∨ (envInput s).requests = [])
    (hi : decodeWords (s.progWord s.pc) (s.progWord (s.pc + 1#14)) = .ok i)
    (hexec : ∀ u, exec i u = .next (putFlag u b x)) :
    step s = .next (putFlag s.pastInput.beforeInstruction b x) :=
  (step_of_decodeWords hreset hstop hnone hawake hi).trans (hexec _)

/-- The next instruction runs at the boundary after it, whatever requests stand there, if I is clear
or interrupts are delayed. -/
theorem step_after_putFlag (ht : t = putFlag s.pastInput.beforeInstruction b x)
    (hreset : (envInput (afterInput s)).reset = false)
    (hclosed : t.sreg.getLsbD 7 = false ∨ t.irqDelay = true)
    (hj : decodeWords (s.progWord (s.pc + 1#14)) (s.progWord (s.pc + 2#14)) = .ok j) :
    step t = exec j { afterInput t with irqDelay := false } := by
  subst ht
  have hpc : s.pc + 2#14 = s.pc + 1#14 + 1#14 := (BitVec.add_assoc s.pc 1#14 1#14).symm
  rw [hpc] at hj
  exact step_of_decodeWords (s := putFlag s.pastInput.beforeInstruction b x) hreset hstop
    (hclosed.imp_right .inl) hawake hj

end

end Sys2Proof.Machine
end

section
/-! PROOFS. The statements about the bit and bit-test instructions, and about the boundary after SEI
and CLI. -/
namespace Sys2Proof.Proofs
open Sys2Proof.Machine Sys2Proof.Claims

/-- Settles O21: SEI delays interrupts, so that the next boundary takes none. -/
theorem instructionAfterSeiRunsFirst : Obligations.InstructionAfterSeiRunsFirst := by
  intro s i hreset hreset2 hstop hawake hI hword hdecode
  have hsei : decodeWords (s.progWord s.pc) (s.progWord (s.pc + 1#14)) = .ok .sei := by
    rw [hword]; rfl
  have hdelay : (putFlag s.pastInput.beforeInstruction flagI true).irqDelay = true := by
    rw [putFlag_eq]
    simp only [beforeInstruction_sreg, pastInput_sreg, hI]
    rfl
  exact ⟨_, step_eq_putFlag hawake hstop hreset (.inl hI) hsei fun _ => rfl, rfl, hdelay, rfl,
    step_after_putFlag hawake hstop rfl hreset2 (.inr hdelay) hdecode⟩

/-- Settles O22: CLI clears I, so that the next boundary takes no interrupt. -/
theorem noInterruptAfterCli : Obligations.NoInterruptAfterCli := by
  intro s i hreset hreset2 hstop hawake hnone hword hdecode
  have hcli : decodeWords (s.progWord s.pc) (s.progWord (s.pc + 1#14)) = .ok .cli := by
    rw [hword]; rfl
  have hI : bitOf (putFlag s.pastInput.beforeInstruction flagI false).sreg flagI = false := by
    rw [putFlag_eq, bitOf_withBit, if_pos rfl]
  exact ⟨_, step_eq_putFlag hawake hstop hreset hnone hcli fun _ => rfl, rfl, rfl,
    step_after_putFlag hawake hstop rfl hreset2 (.inl hI) hdecode⟩

/-- Settles O50: both are one update of the device register, with the bit set or cleared. -/
theorem ioBitWrites : Obligations.IoBitWrites := fun s a b _ hv =>
  ⟨ioUpdate_lowIoAddr s a (withBit · b true) hv rfl,
    ioUpdate_lowIoAddr s a (withBit · b false) hv rfl⟩

/-- Settles O51: the bit shifted in is put where the shift left a clear one. -/
theorem shiftsAndRotates : Obligations.ShiftsAndRotates := by
  rintro s d a _ rfl rfl
  have hrol : withBit (s.regs[d] <<< 1) 0 (s.flag flagC) = s.regs[d] <<< 1 ||| carryByte s :=
    (withBit_of_clear (bitOf_shiftLeft_one_zero _) _).trans
      (congrArg _ (BitVec.shiftLeft_zero (carryByte s)))
  have hror : withBit (s.regs[d] >>> 1) 7 (s.flag flagC) = carryByte s <<< 7 ||| s.regs[d] >>> 1 :=
    (withBit_of_clear (bitOf_ushiftRight_one_seven _) _).trans (BitVec.or_comm _ _)
  have hasr : withBit (s.regs[d] >>> 1) 7 (bitOf s.regs[d] 7) = s.regs[d].sshiftRight 1 :=
    withBit_ushiftRight_one_sign _
  rw [← hrol, ← hror, ← hasr]
  exact ⟨congrArg _ (shiftLeftResult_eq s d _ _), congrArg _ (shiftLeftResult_eq s d _ _),
    congrArg _ (shiftRightResult_eq s d _ _), congrArg _ (shiftRightResult_eq s d _ _),
    congrArg _ (shiftRightResult_eq s d _ _)⟩

/-- Settles O52: all eighteen are `putFlag` with the flag and the value of the list. -/
theorem flagSetsAndClears : Obligations.FlagSetsAndClears := by
  intro s i b x h
  have hexec : exec i s = .next (putFlag s b x) := by
    simp only [List.mem_cons, Prod.mk.injEq, List.not_mem_nil, or_false] at h
    rcases h with ⟨rfl, -, rfl⟩ | ⟨rfl, -, rfl⟩ | ⟨rfl, rfl, rfl⟩ | ⟨rfl, rfl, rfl⟩ |
      ⟨rfl, rfl, rfl⟩ | ⟨rfl, rfl, rfl⟩ | ⟨rfl, rfl, rfl⟩ | ⟨rfl, rfl, rfl⟩ | ⟨rfl, rfl, rfl⟩ |
      ⟨rfl, rfl, rfl⟩ | ⟨rfl, rfl, rfl⟩ | ⟨rfl, rfl, rfl⟩ | ⟨rfl, rfl, rfl⟩ | ⟨rfl, rfl, rfl⟩ |
      ⟨rfl, rfl, rfl⟩ | ⟨rfl, rfl, rfl⟩ | ⟨rfl, rfl, rfl⟩ | ⟨rfl, rfl, rfl⟩ <;> rfl
  exact ⟨withBit s.sreg b x, hexec.trans (congrArg _ (putFlag_eq s b x)),
    fun j => bitOf_withBit s.sreg b j x⟩

/-- Settles O53: each puts one bit of a byte, BST the flag T, BLD bit b of Rd. -/
theorem tFlagTransfers : Obligations.TFlagTransfers := fun s _ b =>
  ⟨⟨_, rfl, fun j => bitOf_withBit s.sreg flagT j _⟩, ⟨_, rfl, fun j => bitOf_withBit _ b j _⟩⟩

end Sys2Proof.Proofs
end

section
/-! PROOFS. The operations of the arithmetic and logic instructions in the vocabulary of the
statements: results with the flags of 10_state.md R18, pairs of registers, and products. -/
namespace Sys2Proof.Machine
open Sys2Proof.Claims

/-! ## Additions and subtractions with their flags (10_state.md R18) -/

theorem carryByte_eq (s : State) : carryByte s = BitVec.ofNat 8 (carryNat (s.flag flagC)) := by
  change (if s.flag flagC then 1#8 else 0#8) = _
  cases s.flag flagC <;> rfl

theorem addFlags_res_false (a b : Byte) : (addFlags a b false).res = a + b :=
  (addFlags_res a b false).trans (BitVec.add_zero _)

theorem addFlags_res_carry (s : State) (a b : Byte) :
    (addFlags a b (s.flag flagC)).res = a + b + carryByte s := by
  rw [addFlags_res, carryByte_eq]

theorem subFlags_res_false (a b : Byte) : (subFlags a b false).res = a - b :=
  (subFlags_res a b false).trans (BitVec.sub_zero _)

theorem subFlags_res_carry (s : State) (a b : Byte) :
    (subFlags a b (s.flag flagC)).res = a - b - carryByte s := by
  rw [subFlags_res, carryByte_eq]

theorem writeHSVNZC_addFlags (sreg a b : Byte) (c : Bool) :
    writeHSVNZC sreg (addFlags a b c) = additionSreg sreg a b (addFlags a b c).res := by
  have hn : (addFlags a b c).n = bitOf (addFlags a b c).res 7 := msb_eq_bitOf _
  rw [writeHSVNZC_eq _ _ (bne_eq_exclusive_or _ _), addFlags_h, addFlags_v, addFlags_c, hn]
  rfl

/-- Z is left open: SBC, SBCI and CPC chain it. -/
theorem writeHSVNZC_subFlags (sreg a b : Byte) (c z : Bool) :
    writeHSVNZC sreg { subFlags a b c with z := z } =
      subtractionSreg sreg a b (subFlags a b c).res z := by
  have hn : (subFlags a b c).n = bitOf (subFlags a b c).res 7 := msb_eq_bitOf _
  rw [writeHSVNZC_eq _ _ (bne_eq_exclusive_or _ _), subFlags_h, subFlags_v, subFlags_c, hn]
  rfl

section
variable (s : State) (d : Reg) (a b : Byte) (c z : Bool)

theorem aluResult_addFlags : aluResult s d (addFlags a b c) =
    afterRegSreg s d (addFlags a b c).res (additionSreg s.sreg a b (addFlags a b c).res) := by
  rw [aluResult, writeHSVNZC_addFlags]
  rfl

theorem aluResult_subFlags : aluResult s d { subFlags a b c with z := z } =
    afterRegSreg s d (subFlags a b c).res
      (subtractionSreg s.sreg a b (subFlags a b c).res z) := by
  rw [aluResult, writeHSVNZC_subFlags]
  rfl

theorem aluFlags_subFlags : aluFlags s { subFlags a b c with z := z } =
    afterSreg s (subtractionSreg s.sreg a b (subFlags a b c).res z) := by
  rw [aluFlags, writeHSVNZC_subFlags]
  rfl

end

/-! ## Logic, and the flags without H (10_state.md R18, R19) -/

theorem writeLogic_eq (sreg res : Byte) : writeLogic sreg res = logicSreg sreg res := by
  rw [writeLogic, writeSVNZ_eq, msb_eq_bitOf]
  rfl

theorem logicResult_eq (s : State) (d : Reg) (res : Byte) :
    logicResult s d res = afterRegSreg s d res (logicSreg s.sreg res) := by
  rw [logicResult, writeLogic_eq]
  rfl

theorem execEor_eq (d r : Reg) (s : State) :
    execEor d r s = .next (logicResult s d (s.regs[d] ^^^ s.regs[r])) := by
  by_cases h : d = r
  · subst h
    rw [execEor, if_pos rfl, BitVec.xor_self]
  · rw [execEor, if_neg h]
    rfl

theorem sub_from_ones_eq_not (a : Byte) : 0xFF#8 - a = ~~~a := BitVec.allOnes_sub_eq_not a

theorem msb_eq_getLsbD_seven (a : Byte) : a.msb = a.getLsbD 7 := BitVec.msb_eq_getLsbD_last a

theorem not_msb_eq (a : Byte) : (~~~a).msb = !a.getLsbD 7 := by
  rw [msb_eq_getLsbD_seven, BitVec.getLsbD_not]
  rfl

theorem not_beq_zero (a : Byte) : (~~~a == 0#8) = (a == 0xFF#8) :=
  beq_eq_beq.2 BitVec.not_eq_comm

/-! ## Pairs and products -/

theorem msb_eq_getLsbD_fifteen (a : BitVec 16) : a.msb = a.getLsbD 15 :=
  BitVec.msb_eq_getLsbD_last a

/-- A pair written with SREG, as ADIW, SBIW and the multiplies do. -/
theorem setPair_setSreg_advance (s : State) (d : Reg) (v : BitVec 16) (f : Byte) :
    ((s.setPair d v).setSreg f).advance 1 = afterPairSreg s d v f := by
  rw [afterPairSreg, BitVec.setWidth_eq_extractLsb' (by decide),
    BitVec.setWidth_ushiftRight_eq_extractLsb]
  rfl

theorem productResult_eq (s : State) (p res : BitVec 16) : productResult s p res =
    afterPairSreg s 0 res (newZC s.sreg (res == 0#16) (p.getLsbD 15)) := by
  rw [productResult, setPair_setSreg_advance, writeZC_eq, msb_eq_getLsbD_fifteen]

theorem ofInt_toNat (a : Byte) : BitVec.ofInt 16 (a.toNat : Int) = a.setWidth 16 := by
  rw [BitVec.ofInt_natCast, BitVec.ofNat_toNat]

theorem productOf_unsigned (a b : Byte) :
    productOf (a.toNat : Int) (b.toNat : Int) = a.setWidth 16 * b.setWidth 16 := by
  rw [productOf, BitVec.ofInt_mul, ofInt_toNat, ofInt_toNat]

theorem productOf_signed (a b : Byte) :
    productOf a.toInt b.toInt = a.signExtend 16 * b.signExtend 16 :=
  BitVec.ofInt_mul _ _

theorem productOf_signed_unsigned (a b : Byte) :
    productOf a.toInt (b.toNat : Int) = a.signExtend 16 * b.setWidth 16 := by
  rw [productOf, BitVec.ofInt_mul, ofInt_toNat]
  rfl

/-- The shift of the fractional forms (43_arithmetic_logic.md R278). -/
theorem word_shiftLeft_one_eq_add (p : BitVec 16) : p <<< 1 = p + p :=
  (BitVec.shiftLeft_eq_mul_twoPow p 1).trans BitVec.mul_two

end Sys2Proof.Machine
end

section
/-! PROOFS. The statements about the arithmetic and logic instructions. -/
namespace Sys2Proof.Proofs
open Sys2Proof.Machine Sys2Proof.Claims

/-- Settles O54: one addition, without and with the carry. -/
theorem additions : Obligations.Additions := by
  rintro s d r _ _ _ rfl rfl
  refine ⟨?add, ?adc⟩
  case add =>
    rintro rfl
    rw [← addFlags_res_false]
    exact congrArg _ (aluResult_addFlags s d _ _ _)
  case adc =>
    rintro rfl
    rw [← addFlags_res_carry]
    exact congrArg _ (aluResult_addFlags s d _ _ _)

/-- Settles O55: one subtraction, without and with the carry, and with Z of the result alone or
chained. -/
theorem subtractionsAndCompares : Obligations.SubtractionsAndCompares := by
  rintro s d r _ _ k rfl rfl
  refine ⟨?registers, ?immediate, ?negation, ?carry, ?immediateCarry⟩
  case registers =>
    rintro _ rfl
    rw [← subFlags_res_false]
    exact ⟨congrArg _ (aluResult_subFlags s d _ _ _ _), congrArg _ (aluFlags_subFlags s _ _ _ _)⟩
  case immediate =>
    rintro _ rfl
    rw [← subFlags_res_false]
    exact ⟨congrArg _ (aluResult_subFlags s d _ _ _ _), congrArg _ (aluFlags_subFlags s _ _ _ _)⟩
  case negation =>
    rintro _ rfl
    rw [← subFlags_res_false]
    exact congrArg _ (aluResult_subFlags s d _ _ _ _)
  case carry =>
    rintro _ _ rfl rfl
    rw [← subFlags_res_carry]
    exact ⟨congrArg _ (aluResult_subFlags s d _ _ _ _), congrArg _ (aluFlags_subFlags s _ _ _ _)⟩
  case immediateCarry =>
    rintro _ _ rfl rfl
    rw [← subFlags_res_carry]
    exact congrArg _ (aluResult_subFlags s d _ _ _ _)

/-- Settles O56: one write of the pair with its flags; C of an addition is ¬R15 · Rd15. -/
theorem wordArithmetic : Obligations.WordArithmetic := by
  rintro s d k _ rfl
  refine ⟨?adiw, ?sbiw⟩
  case adiw =>
    rintro _ rfl
    simp only [← msb_eq_getLsbD_fifteen]
    rw [← setPair_setSreg_advance, ← writeSVNZC_eq, Bool.and_comm (!_) (pairAt s d).msb]
    rfl
  case sbiw =>
    rintro _ rfl
    simp only [← msb_eq_getLsbD_fifteen]
    rw [← setPair_setSreg_advance, ← writeSVNZC_eq]
    rfl

/-- Settles O57: all but TST, CLR and COM are one logic result; EOR of a register with itself is 0,
and a difference from $FF is a complement. -/
theorem logicInstructions : Obligations.LogicInstructions := by
  rintro s d r _ _ k rfl rfl
  have hlogic (res : Byte) : (.next (logicResult s d res) : Res State) =
      .next (afterRegSreg s d res (logicSreg s.sreg res)) := congrArg _ (logicResult_eq s d res)
  refine ⟨hlogic _, hlogic _, hlogic _, hlogic _, ?eor, hlogic _, ?cbr, ?tst, ?clr, ?com⟩
  case eor => exact (execEor_eq d r s).trans (hlogic _)
  case cbr =>
    rw [← sub_from_ones_eq_not]
    exact hlogic _
  case tst =>
    rw [← writeLogic_eq]
    rfl
  case clr =>
    rw [← writeSVNZ_eq]
    rfl
  case com =>
    rw [← not_beq_zero, ← not_msb_eq, ← sub_from_ones_eq_not, ← writeSVNZC_eq]
    rfl

/-- Settles O58: the result is $80 (of DEC, $7F) or $00 at one operand each. -/
theorem incrementAndDecrement : Obligations.IncrementAndDecrement := by
  rintro s d _ rfl
  refine ⟨?inc, ?dec⟩
  case inc =>
    have hv : (s.regs[d] + 1#8 == 0x80#8) = (s.regs[d] == 0x7F#8) :=
      beq_eq_beq.2 (BitVec.add_left_inj (y := 0x7F#8) 1#8)
    have hz : (s.regs[d] + 1#8 == 0#8) = (s.regs[d] == 0xFF#8) :=
      beq_eq_beq.2 (BitVec.add_left_inj (y := 0xFF#8) 1#8)
    rw [← hv, ← hz, ← writeSVNZ_eq, ← msb_eq_getLsbD_seven]
    rfl
  case dec =>
    have hv : (s.regs[d] - 1#8 == 0x7F#8) = (s.regs[d] == 0x80#8) :=
      beq_eq_beq.2 (BitVec.sub_left_inj (y := 0x80#8) 1#8)
    have hz : (s.regs[d] - 1#8 == 0#8) = (s.regs[d] == 0x01#8) :=
      beq_eq_beq.2 (BitVec.sub_left_inj (y := 0x01#8) 1#8)
    rw [← hv, ← hz, ← writeSVNZ_eq, ← msb_eq_getLsbD_seven]
    rfl

/-- Settles O59: all six are one product result, of a product of extended operands. -/
theorem multiplies : Obligations.Multiplies := by
  rintro s d r _ _ i p res rfl rfl h
  have hexec : exec i s = .next (productResult s p res) := by
    simp only [← word_shiftLeft_one_eq_add, ← productOf_unsigned, ← productOf_signed,
      ← productOf_signed_unsigned] at h
    rcases h with ⟨rfl, rfl, rfl⟩ | ⟨rfl, rfl, rfl⟩ | ⟨rfl, rfl, rfl⟩ | ⟨rfl, rfl, rfl⟩ |
      ⟨rfl, rfl, rfl⟩ | ⟨rfl, rfl, rfl⟩ <;> rfl
  exact hexec.trans (congrArg _ (productResult_eq s p res))

end Sys2Proof.Proofs
end

section
/-! PROOFS. The boundaries at which the core does nothing, and the two MCU control instructions with
a condition. -/
namespace Sys2Proof.Machine

/-! ## Idle boundaries (60_exceptions.md R324) -/

theorem interruptible_eq_false {s : State} (h : s.sreg.getLsbD 7 = false ∨ s.irqDelay = true) :
    s.interruptible = false := by
  rcases h with hI | hdelay
  · have hflag : s.flag flagI = false := hI
    rw [State.interruptible, hflag, Bool.false_and]
  · rw [State.interruptible, hdelay, Bool.not_true, Bool.and_false]

/-- With I clear, a delay, or no request, no interrupt is to be taken. -/
theorem noInterrupt_of_waiting {s : State} {e : EnvInput}
    (h : s.sreg.getLsbD 7 = false ∨ s.irqDelay = true ∨ e.requests = []) :
    s.interruptible = false ∨ mostUrgent e.requests = none := by
  rcases or_assoc.2 h with hclosed | hreq
  · exact .inl (interruptible_eq_false hclosed)
  · exact .inr (by rw [hreq]; rfl)

theorem boundaryEvent_stopped {s : State} {e : EnvInput} (hreset : e.reset = false)
    (hstop : s.stopped = true) : boundaryEvent e s = .stopped := by
  rw [boundaryEvent, hreset, hstop]
  rfl

theorem boundaryEvent_asleep {s : State} {e : EnvInput} (hreset : e.reset = false)
    (hstop : s.stopped = false) (hsleep : s.sleeping = true)
    (hnone : s.interruptible = false ∨ mostUrgent e.requests = none) :
    boundaryEvent e s = .asleep := by
  have htaken : (if s.interruptible then mostUrgent e.requests else none) = none := by
    rcases hnone with hint | hreq
    · rw [hint]; rfl
    · rw [hreq, ite_self]
  rw [boundaryEvent, hreset, hstop, htaken, hsleep]
  rfl

/-- A stopped or sleeping boundary consumes its input and nothing else (entry 19). -/
theorem step_of_idle_event {s : State} (h : boundaryEvent (envInput s) s = .stopped ∨
    boundaryEvent (envInput s) s = .asleep) : step s = .next s.pastInput := by
  rcases h with h | h <;> rw [step, atBoundary, h]

/-! ## SLEEP and BREAK (44_mcu_control.md R301, R303) -/

/-- SLEEP with SE clear leaves the sleeping bit as it was. -/
theorem execSleep_eq (s : State) :
    execSleep s = .next { s.advance 1 with sleeping := s.sleeping || bitOf s.mcucr 7 } := by
  rw [execSleep]
  cases bitOf s.mcucr 7
  · rw [Bool.or_false]; rfl
  · rw [Bool.or_true]; rfl

/-- BREAK under break_is_nop leaves the stopped bit as it was. -/
theorem execBrk_eq (s : State) :
    execBrk s = .next { s.advance 1 with stopped := s.stopped || !s.params.breakIsNop } := by
  rw [execBrk]
  cases s.params.breakIsNop
  · rw [Bool.not_false, Bool.or_true]; rfl
  · rw [Bool.not_true, Bool.or_false]; rfl

end Sys2Proof.Machine
end

section
/-! PROOFS. The statements about idle cores and about the MCU control instructions. -/
namespace Sys2Proof.Proofs
open Sys2Proof.Machine

/-- Settles O19: being stopped comes before being asleep, and both are idle boundaries. -/
theorem stoppedAndSleepingCoresIdle : Obligations.StoppedAndSleepingCoresIdle := by
  intro s hreset h
  refine step_of_idle_event ?_
  cases hstop : s.stopped with
  | true => exact .inl (boundaryEvent_stopped hreset hstop)
  | false =>
    obtain ⟨hsleep, hwaiting⟩ := h.resolve_left (Bool.eq_false_iff.1 hstop)
    exact .inr (boundaryEvent_asleep hreset hstop hsleep (noInterrupt_of_waiting hwaiting))

/-- Settles O60: NOP and WDR have no condition, that of SLEEP is SE, that of BREAK the parameter. -/
theorem mcuControl : Obligations.McuControl := fun s =>
  ⟨rfl, rfl, execSleep_eq s, execBrk_eq s⟩

end Sys2Proof.Proofs
end

section
/-! PROOFS. The boundaries at which the core is reset, at which it takes an interrupt, and at which
it holds its requests off. -/
namespace Sys2Proof.Machine
open Sys2Proof.Claims

variable {s t : State} {e : EnvInput} {n : IntVector}

/-! ## The most urgent request (60_exceptions.md R322, R330) -/

/-- The search order is the order of priority. -/
theorem vectorOrder_rising :
    vectorOrder.Pairwise fun m k => vectorNumber m < vectorNumber k := by decide

theorem mem_vectorOrder (n : IntVector) : n ∈ vectorOrder := by cases n <;> decide

/-- The search passes over every source before the least requesting one. -/
theorem mostUrgent_of_least {req : List IntVector} (hmem : n ∈ req)
    (hleast : ∀ m ∈ req, vectorNumber n ≤ vectorNumber m) : mostUrgent req = some n := by
  obtain ⟨before, after, hsplit⟩ := List.append_of_mem (mem_vectorOrder n)
  have hrising := vectorOrder_rising
  rw [hsplit, List.pairwise_append] at hrising
  obtain ⟨_, _, hbefore⟩ := hrising
  refine List.find?_eq_some_iff_append.2
    ⟨List.contains_iff_mem.2 hmem, before, after, hsplit, fun m hm => ?_⟩
  have hlt : vectorNumber m < vectorNumber n := hbefore m hm n List.mem_cons_self
  have hquiet : m ∉ req := fun hreq => absurd hlt (not_lt.2 (hleast m hreq))
  simpa using hquiet

/-! ## What a boundary is (60_exceptions.md R324, R331) -/

theorem interruptible_eq_true (hI : s.sreg.getLsbD 7 = true) (hdelay : s.irqDelay = false) :
    s.interruptible = true := by
  have hflag : s.flag flagI = true := hI
  rw [State.interruptible, hflag, hdelay]
  rfl

theorem boundaryEvent_reset (hreset : e.reset = true) : boundaryEvent e s = .reset :=
  if_pos hreset

/-- The sleeping bit plays no part. -/
theorem boundaryEvent_interrupt (hreset : e.reset = false) (hstop : s.stopped = false)
    (hint : s.interruptible = true) (hurgent : mostUrgent e.requests = some n) :
    boundaryEvent e s = .interrupt n := by
  rw [boundaryEvent, hreset, hstop, hint, hurgent]
  rfl

/-- With interrupts held off, of the input only the reset counts. -/
theorem boundaryEvent_requests (hint : s.interruptible = false) (r : Bool)
    (q q2 : List IntVector) :
    boundaryEvent { reset := r, requests := q } s =
      boundaryEvent { reset := r, requests := q2 } s := by
  rw [boundaryEvent, boundaryEvent, hint]
  rfl

/-! ## The step at such a boundary -/

theorem step_of_reset (hreset : (envInput s).reset = true) :
    step s = .next (warmReset s.pastInput) := by
  rw [step, atBoundary, boundaryEvent_reset hreset]

theorem step_of_interrupt (h : boundaryEvent (envInput s) s = .interrupt n) :
    step s = interruptEntry s.pastInput n := by
  rw [step, atBoundary, h]

/-- A step looks at the input only to learn what happens at the boundary. -/
theorem step_congr (hpast : s.pastInput = t.pastInput)
    (hevent : boundaryEvent (envInput s) s = boundaryEvent (envInput t) t) : step s = step t := by
  rw [step, step, atBoundary, atBoundary, hevent, hpast]

/-! ## The entry into an interrupt (60_exceptions.md R326, R327) -/

theorem withBit_flagI_false (v : Byte) : withBit v flagI false = v &&& 0x7F#8 := rfl

/-- The vector is that of the state before the push, which keeps VECTOR_BASE. -/
theorem interruptEntry_of_pushPC (h : pushPC s s.pc = .next t) (n : IntVector) :
    interruptEntry s n = .next { t with
      sreg := t.sreg &&& 0x7F#8, sleeping := false
      pc := s.params.vectorBase + BitVec.ofNat 14 (2 * (vectorNumber n - 1))
      events := t.events ++ [.interruptTaken n] } := by
  obtain ⟨_, _, _, _, _, _, _, _, hparams⟩ := pushPC_keeps h
  rw [interruptEntry, h, bind_next, withBit_flagI_false, vectorAddress, hparams]

theorem interruptEntry_of_pushedPC_none (h : pushedPC s s.pc = none) (n : IntVector) :
    interruptEntry s n = pushPCStop s s.pc := by
  rw [interruptEntry, pushPC_of_pushedPC_none h, pushPCStop_bind]

end Sys2Proof.Machine
end

section
/-! PROOFS. The statements about interrupts and resets at a boundary. -/
namespace Sys2Proof.Proofs
open Sys2Proof.Machine Sys2Proof.Claims

/-- Settles O16: the boundary is the entry into the least requesting source, and the entry goes on
where its push does. -/
theorem stepTakesMostUrgentInterrupt : Obligations.StepTakesMostUrgentInterrupt := by
  intro s u n hreset hstop hI hdelay hmem hleast hu
  have hentry : step s = interruptEntry u n := by
    rw [hu, afterInput_eq]
    exact step_of_interrupt (boundaryEvent_interrupt hreset hstop (interruptible_eq_true hI hdelay)
      (mostUrgent_of_least hmem hleast))
  have hpc : u.pc = s.pc := by rw [hu]; rfl
  have hparams : u.params = s.params := by rw [hu]; rfl
  rw [hentry, ← hpc, ← hparams]
  exact ⟨fun t ht => interruptEntry_of_pushPC (pushPC_of_pushedPC ht) n,
    fun hnone => interruptEntry_of_pushedPC_none hnone n⟩

/-- Settles O17: the push of a return address into SRAM, and what the entry adds to it. -/
theorem interruptEntryWithStackInSram : Obligations.InterruptEntryWithStackInSram := by
  intro s n hwf h1 h2
  exact ⟨withReturn s.sram s.sp.toNat s.pc, interruptEntry_of_pushPC (pushPC_sram s s.pc h1 h2) n,
    read_withReturn hwf (by omega) s.pc⟩

/-- Settles O20: the two boundaries have one reset, so they are the same event in the same state. -/
theorem requestsWaitWhileNotInterruptible : Obligations.RequestsWaitWhileNotInterruptible := by
  intro s r q q2 rest hclosed
  have hint : s.interruptible = false := interruptible_eq_false hclosed
  exact step_congr rfl (boundaryEvent_requests hint r q q2)

/-- Settles O18: the fields of the state after a reset in a run. -/
theorem stepDeliversReset : Obligations.StepDeliversReset := fun s hreset =>
  ⟨warmReset s.pastInput, step_of_reset hreset, rfl, rfl, rfl, rfl, rfl, rfl, rfl, fun _ => rfl,
    fun _ => rfl, rfl, rfl, rfl, rfl⟩

end Sys2Proof.Proofs
end
